-- ==== Sys2Proof/Word.lean ====
section
/-! DEFINITION. The word types of the block (spec 00_scope.md R7, R8, R11; 30_encoding.md R70). -/

namespace Sys2Proof

/-- Eight bits: an input character, a record field, the sink data (R7). -/
abbrev Byte := BitVec 8

/-- A 4-bit value, one hex digit (R15). -/
abbrev Nibble := BitVec 4

/-- A sink address, and the extension base: 32 bits (R7). -/
abbrev Addr := BitVec 32

/-- A command word `W = {cmd[1:0], byte[7:0]}` (R70). -/
abbrev CmdWord := BitVec 10

end Sys2Proof
end

