-- ==== Sys2Proof/Syntax.lean ====
section
/-! DEFINITION. The commands of the block, one constructor per row of opcode_table.json (30_encoding.md R89). -/

namespace Sys2Proof

/-- A command. NOP, INIT and BEGIN carry the byte their word holds, which they ignore (R70); FEED.OTHER carries its
character (R107). -/
inductive Instr where
  | nop (ignored : Byte)
  | init (ignored : Byte)
  | begin (ignored : Byte)
  | feedCr
  | feedLf
  | feedMark
  | feedHex0
  | feedHex1
  | feedHex2
  | feedHex3
  | feedHex4
  | feedHex5
  | feedHex6
  | feedHex7
  | feedHex8
  | feedHex9
  | feedHexUpperA
  | feedHexUpperB
  | feedHexUpperC
  | feedHexUpperD
  | feedHexUpperE
  | feedHexUpperF
  | feedHexLowerA
  | feedHexLowerB
  | feedHexLowerC
  | feedHexLowerD
  | feedHexLowerE
  | feedHexLowerF
  | feedOther (char : Byte)
  deriving DecidableEq, Repr

end Sys2Proof
end

