-- ==== Sys2Proof/WellFormed.lean ====
section
/-! DEFINITION. Which instructions stand for a command word: the byte of FEED.OTHER must belong to the class OTHER
(30_encoding.md R72). -/

namespace Sys2Proof

/-- The class OTHER, range by range as R72 lists it: 231 values. -/
def isOtherByte (b : Byte) : Bool :=
  b ≤ 0x09 || b == 0x0B || b == 0x0C || (0x0E ≤ b && b ≤ 0x2F) || (0x3B ≤ b && b ≤ 0x40) ||
    (0x47 ≤ b && b ≤ 0x60) || 0x67 ≤ b

/-- A well-formed instruction. Every operand is bounded by its type but FEED.OTHER's character. -/
def Instr.wf : Instr → Bool
  | .feedOther b => isOtherByte b
  | .nop _ => true
  | .init _ => true
  | .begin _ => true
  | .feedCr => true
  | .feedLf => true
  | .feedMark => true
  | .feedHex0 => true
  | .feedHex1 => true
  | .feedHex2 => true
  | .feedHex3 => true
  | .feedHex4 => true
  | .feedHex5 => true
  | .feedHex6 => true
  | .feedHex7 => true
  | .feedHex8 => true
  | .feedHex9 => true
  | .feedHexUpperA => true
  | .feedHexUpperB => true
  | .feedHexUpperC => true
  | .feedHexUpperD => true
  | .feedHexUpperE => true
  | .feedHexUpperF => true
  | .feedHexLowerA => true
  | .feedHexLowerB => true
  | .feedHexLowerC => true
  | .feedHexLowerD => true
  | .feedHexLowerE => true
  | .feedHexLowerF => true

end Sys2Proof
end

