-- ==== Sys2Proof/Decode.lean ====
section
/-! DEFINITION. The decoder, driven by the opcode table (30_encoding.md R70, R89), and after it the encoder. The
decoder answers `none` for a word no row matches; R71 says that there is no such word. -/

namespace Sys2Proof

/-- `cmd = W[9:8]` (R70). -/
def cmdOf (w : CmdWord) : BitVec 2 := w.extractLsb' 8 2

/-- `byte = W[7:0]` (R70). -/
def byteOf (w : CmdWord) : Byte := w.extractLsb' 0 8

/-- `W = {cmd, byte}` (R70). -/
def cmdWord (cmd : BitVec 2) (byte : Byte) : CmdWord := cmd ++ byte

/-- One row of the opcode table (R89): a word belongs to it when `(W & mask) = pattern`. -/
structure OpcodeRow where
  pattern : CmdWord
  mask : CmdWord
  build : Byte → Instr

/-- The rows of priority 0: the commands that ignore their byte (R70). -/
def commandRows : List OpcodeRow :=
  [⟨0x000, 0x300, .nop⟩, ⟨0x100, 0x300, .init⟩, ⟨0x200, 0x300, .begin⟩]

/-- The rows of priority 1 that are no hex digit (R72, R104, R105). -/
def lineRows : List OpcodeRow :=
  [⟨0x30D, 0x3FF, fun _ => .feedCr⟩, ⟨0x30A, 0x3FF, fun _ => .feedLf⟩, ⟨0x33A, 0x3FF, fun _ => .feedMark⟩]

/-- The rows of `'0'` to `'9'` (R72, R106). -/
def decimalRows : List OpcodeRow :=
  [⟨0x330, 0x3FF, fun _ => .feedHex0⟩,
   ⟨0x331, 0x3FF, fun _ => .feedHex1⟩,
   ⟨0x332, 0x3FF, fun _ => .feedHex2⟩,
   ⟨0x333, 0x3FF, fun _ => .feedHex3⟩,
   ⟨0x334, 0x3FF, fun _ => .feedHex4⟩,
   ⟨0x335, 0x3FF, fun _ => .feedHex5⟩,
   ⟨0x336, 0x3FF, fun _ => .feedHex6⟩,
   ⟨0x337, 0x3FF, fun _ => .feedHex7⟩,
   ⟨0x338, 0x3FF, fun _ => .feedHex8⟩,
   ⟨0x339, 0x3FF, fun _ => .feedHex9⟩]

/-- The rows of `'A'` to `'F'` (R72, R106). -/
def upperRows : List OpcodeRow :=
  [⟨0x341, 0x3FF, fun _ => .feedHexUpperA⟩,
   ⟨0x342, 0x3FF, fun _ => .feedHexUpperB⟩,
   ⟨0x343, 0x3FF, fun _ => .feedHexUpperC⟩,
   ⟨0x344, 0x3FF, fun _ => .feedHexUpperD⟩,
   ⟨0x345, 0x3FF, fun _ => .feedHexUpperE⟩,
   ⟨0x346, 0x3FF, fun _ => .feedHexUpperF⟩]

/-- The rows of `'a'` to `'f'` (R72, R106). -/
def lowerRows : List OpcodeRow :=
  [⟨0x361, 0x3FF, fun _ => .feedHexLowerA⟩,
   ⟨0x362, 0x3FF, fun _ => .feedHexLowerB⟩,
   ⟨0x363, 0x3FF, fun _ => .feedHexLowerC⟩,
   ⟨0x364, 0x3FF, fun _ => .feedHexLowerD⟩,
   ⟨0x365, 0x3FF, fun _ => .feedHexLowerE⟩,
   ⟨0x366, 0x3FF, fun _ => .feedHexLowerF⟩]

/-- The row of priority 2, FEED.OTHER (R107). -/
def otherRows : List OpcodeRow := [⟨0x300, 0x300, .feedOther⟩]

/-- The opcode table in increasing priority (R89). -/
def opcodeRows : List OpcodeRow :=
  commandRows ++ lineRows ++ decimalRows ++ upperRows ++ lowerRows ++ otherRows

/-- The first row, in increasing priority, with `(W & mask) = pattern` (R89). -/
def decode (w : CmdWord) : Option Instr :=
  (opcodeRows.find? fun r => (w &&& r.mask) = r.pattern).map fun r => r.build (byteOf w)

/-- The command word among a table word's bits: bits 9 to 0; the bits above `nbits` are 0, and the bits above bit 9
are no bits of the 10-bit port (log 10). -/
def tableWord (nbits w : Nat) : CmdWord := BitVec.ofNat 10 (w % 2 ^ nbits)

/-- The instruction the decoder reads from a word numbered as opcode_table.json numbers it. -/
def decodeTableWord (nbits w : Nat) : Option Instr := decode (tableWord nbits w)

/-- The byte a command word holds (R70, R72). -/
def Instr.byte : Instr → Byte
  | .nop b => b
  | .init b => b
  | .begin b => b
  | .feedCr => 0x0D
  | .feedLf => 0x0A
  | .feedMark => 0x3A
  | .feedHex0 => 0x30
  | .feedHex1 => 0x31
  | .feedHex2 => 0x32
  | .feedHex3 => 0x33
  | .feedHex4 => 0x34
  | .feedHex5 => 0x35
  | .feedHex6 => 0x36
  | .feedHex7 => 0x37
  | .feedHex8 => 0x38
  | .feedHex9 => 0x39
  | .feedHexUpperA => 0x41
  | .feedHexUpperB => 0x42
  | .feedHexUpperC => 0x43
  | .feedHexUpperD => 0x44
  | .feedHexUpperE => 0x45
  | .feedHexUpperF => 0x46
  | .feedHexLowerA => 0x61
  | .feedHexLowerB => 0x62
  | .feedHexLowerC => 0x63
  | .feedHexLowerD => 0x64
  | .feedHexLowerE => 0x65
  | .feedHexLowerF => 0x66
  | .feedOther b => b

/-- The command code of an instruction: 0 NOP, 1 INIT, 2 BEGIN, 3 FEED (R70). -/
def Instr.cmd : Instr → BitVec 2
  | .nop _ => 0
  | .init _ => 1
  | .begin _ => 2
  | .feedCr => 3
  | .feedLf => 3
  | .feedMark => 3
  | .feedHex0 => 3
  | .feedHex1 => 3
  | .feedHex2 => 3
  | .feedHex3 => 3
  | .feedHex4 => 3
  | .feedHex5 => 3
  | .feedHex6 => 3
  | .feedHex7 => 3
  | .feedHex8 => 3
  | .feedHex9 => 3
  | .feedHexUpperA => 3
  | .feedHexUpperB => 3
  | .feedHexUpperC => 3
  | .feedHexUpperD => 3
  | .feedHexUpperE => 3
  | .feedHexUpperF => 3
  | .feedHexLowerA => 3
  | .feedHexLowerB => 3
  | .feedHexLowerC => 3
  | .feedHexLowerD => 3
  | .feedHexLowerE => 3
  | .feedHexLowerF => 3
  | .feedOther _ => 3

/-- The command word of an instruction (R70). -/
def encode (i : Instr) : CmdWord := cmdWord i.cmd i.byte

end Sys2Proof
end

