-- ==== Sys2Proof/Config.lean ====
section
/-! DEFINITION. What is fixed outside the block: the statuses and requests of its ports, the named parameters
(00_scope.md R9), and the sink's free answer (43_payload_extension.md R166). -/

namespace Sys2Proof

/-- A status value (30_encoding.md R80): one of the block's own codes, reserved codes included, or a sink-domain
code. `EXT_CODE_W` bounds the latter's width; the port cuts it to that width (`statusOnPort`, log 9). -/
inductive Status where
  | own (code : Byte)
  | ext (code : Nat)
  deriving DecidableEq, Repr, Inhabited

/-- `Own(Continue)`, 0x000 (R80, R81). -/
abbrev Status.continue_ : Status := .own 0x00
/-- `Own(End)`, 0x001 (R80, R81). -/
abbrev Status.end_ : Status := .own 0x01
/-- `Own(InvalidInput)`, 0x002 (R80, R81). -/
abbrev Status.invalidInput : Status := .own 0x02
/-- `Own(ChecksumError)`, 0x003 (R80, R81). -/
abbrev Status.checksumError : Status := .own 0x03

/-- One request on the sink port, `{addr[31:0], data[7:0]}` (R83). -/
structure SinkRequest where
  addr : Addr
  data : Byte
  deriving DecidableEq, Repr

/-- What the sink does with one request: it answers (R166), or it breaks the rules of its port by issuing a
command to the same block (R217), or it never answers (R253). -/
inductive SinkResponse where
  | answers (st : Status)
  | reenters (w : CmdWord)
  | silent
  deriving DecidableEq, Repr

/-- `SLOT_POLICY` (R9, R125): whether an invalid character in a digit phase uses up a digit slot. -/
inductive SlotPolicy where
  | retain
  | consume
  deriving DecidableEq, Repr

/-- The parameters fixed when the block is built (R9, R32). Plain data carried by State, never written (log 9). -/
structure Params where
  slotPolicy : SlotPolicy
  /-- `EXT_CODE_W`, an integer >= 1. -/
  extCodeW : Nat
  deriving DecidableEq, Repr

/-- The defaults of this spec (R9). -/
def Params.default : Params := { slotPolicy := .retain, extCodeW := 8 }

/-- The parameter `Sink` of R9: the sink's answer to a request, from its address, its data and the history of
earlier requests, under no law (R166, D17). A free value (log 5): nothing can evaluate it. -/
opaque Config.sink : Addr → Byte → List SinkRequest → Status

end Sys2Proof
end

