-- ==== Sys2Proof/Machine/State.lean ====
section
/-! DEFINITION. The state of the block (10_state.md R21), its fault state (60_exceptions.md R216), its ports
(30_encoding.md R83, R84) and the environment's plain data; and the state after reset (70_reset_and_hazards.md R240). -/

namespace Sys2Proof.Machine

/-- The phase of the record state machine (R22, R85). The two reserved values cannot be reached (R34). -/
inductive Phase where
  | awaitMark
  | awaitLength
  | awaitAddress
  | awaitType
  | awaitPayload
  | awaitChecksum
  | reserved6
  | reserved7
  deriving DecidableEq, Repr

/-- The fault reasons of R216, as the fault state records them. -/
inductive FaultReason where
  /-- Raised by a type-00 payload byte that completes before INIT (R165). Safe. -/
  | unboundSink
  /-- Raised by a digit step that finds `remainingDigits = 0` (R127). Safe. -/
  | counterUnderflow
  /-- Raised by a FEED in a reserved phase (R103). Safe. -/
  | illegalPhase
  deriving DecidableEq, Repr

/-- Why a step has no next state because it never ends. (The fault reasons of R216 are `FaultReason`: they end in the
fault state, which is a next state.) -/
inductive Fault where
  /-- Raised by a sink request that the sink never answers: "a step waiting on the sink's answer waits forever"
  (R253, U11). Safe. -/
  | sinkNeverAnswers
  deriving DecidableEq, Repr

/-- Why a command has no step. -/
inductive Refusal where
  /-- Raised by a dispatch arm that has no meaning yet. Safe. -/
  | notModelled (mnemonic : String)
  /-- Raised by every command offered in the fault state (R216). Safe. -/
  | faultRecorded (r : FaultReason)
  /-- Raised by a sink request while which the sink issues the command `w` to the same block (R217). Safe. -/
  | sinkReentry (w : CmdWord)
  /-- Raised by a step on a word that no row of the opcode table matches; there is none (R71, R89). Safe. -/
  | noRow (w : CmdWord)
  deriving DecidableEq, Repr

/-- Why a rule ends a FEED step before its `return` (R13). -/
inductive Stop where
  | fault (r : FaultReason)
  | stuck (f : Fault)
  | refuse (r : Refusal)
  deriving DecidableEq, Repr

/-- The result port, `{statusValid, status, recStart}` (R84): `statusValid` is `status.isSome`, since an invalid
status carries no meaning (log 4). -/
structure Result where
  status : Option Status
  recStart : Bool
  deriving DecidableEq, Repr

/-- The result of a command that returns no status (R84). -/
def Result.nothing : Result := { status := none, recStart := false }

/-- What the host does next: it presents a command word (R70), or it drives the reset input (R240). -/
inductive Input where
  | command (w : CmdWord)
  | powerOnReset
  deriving DecidableEq, Repr

/-- The state. The first thirteen fields are the registers of R21. -/
structure State where
  phase : Phase
  /-- Hex digits still required by the current field (R23). -/
  remainingDigits : BitVec 9
  /-- The starting delimiter (R24). -/
  mark : Byte
  /-- `LL` (R24). -/
  length : Byte
  /-- `AAAA` (R24). -/
  loadOffset : BitVec 16
  /-- `TT`, the spec's `type` (R24). -/
  recType : Byte
  /-- The payload byte being assembled (R24). -/
  pendingByte : Byte
  /-- `CC` (R24). -/
  targetChecksum : Byte
  /-- The accumulated address extension (R25). -/
  extensionBase : Addr
  /-- The next byte slot of `extensionBase`, 7 for none (R26). -/
  extensionBytePos : BitVec 3
  /-- Index of the payload byte within a data record (R27). -/
  recordByteIndex : Byte
  /-- Sum of the field bytes of the record, modulo 256 (R28). -/
  runningChecksum : Byte
  /-- Whether INIT has bound the sink (R29). -/
  cbBound : Bool
  /-- The recorded fault (R216, R240). -/
  fault : Option FaultReason
  /-- The result of the latest command (R84). -/
  result : Result
  /-- The requests sent on the sink port, oldest first (R83, R166). -/
  sinkLog : List SinkRequest
  /-- The build parameters (R9); no step writes them. -/
  params : Params
  /-- What the sink does at its next requests (log 5). -/
  sinkScript : List SinkResponse
  /-- What the host does next (log 1). -/
  inputs : List Input
  deriving DecidableEq, Repr

/-- The state after power-on reset (R240). The last five fields are no registers of the block: log 4, 9 and 15. -/
def State.reset : State where
  phase := .awaitMark
  remainingDigits := 0
  mark := 0x00
  length := 0x00
  loadOffset := 0x0000
  recType := 0x00
  pendingByte := 0x00
  targetChecksum := 0x00
  extensionBase := 0x00000000
  extensionBytePos := 0
  recordByteIndex := 0x00
  runningChecksum := 0x00
  cbBound := false
  fault := none
  result := Result.nothing
  sinkLog := []
  params := Params.default
  sinkScript := []
  inputs := []

end Sys2Proof.Machine
end

