-- ==== Sys2Proof/Machine/Operands.lean ====
section
/-! DEFINITION. The operand forms: characters and nibbles, field slots, the sink address and the phase encoding
(41_nibble_parser.md R120 to R129; 30_encoding.md R85, R87; 43_payload_extension.md R165). -/

namespace Sys2Proof.Machine

/-- The nibble parser (R120). -/
def nibble (b : Byte) : Option Nibble :=
  if 0x30 ≤ b ∧ b ≤ 0x39 then some ((b - 0x30).setWidth 4)
  else if 0x41 ≤ b ∧ b ≤ 0x46 then some ((b - 0x41 + 10).setWidth 4)
  else if 0x61 ≤ b ∧ b ≤ 0x66 then some ((b - 0x61 + 10).setWidth 4)
  else none

/-- The carriage return and the line feed, ignored everywhere (R73, R104). -/
def isLineEnd (b : Byte) : Bool := b == 0x0D || b == 0x0A

/-- The record mark `':'` (R10, R72). -/
def markChar : Byte := 0x3A

/-- `insertDigit(f, n, p)`: nibble `n` into nibble slot `p` of the field `f` (R122). -/
def insertDigit {w : Nat} (f : BitVec w) (n : Nibble) (p : Nat) : BitVec w :=
  (f &&& ~~~((0xF : BitVec w) <<< (4 * p))) ||| (n.setWidth w <<< (4 * p))

/-- The slot of a digit: the value of `remainingDigits` after the decrement (R124, R129). -/
def State.slot (s : State) : Nat := s.remainingDigits.toNat

/-- The slot of a payload digit within its byte (R129). -/
def payloadSlot (r : Nat) : Nat := r % 2

/-- Byte slot `k` of a 32-bit value holding `b` (R11, R87). -/
def byteAtSlot (b : Byte) (k : BitVec 3) : Addr := b.setWidth 32 <<< (8 * k.toNat)

/-- The high byte of the load offset, `loadOffset[15:8]` (R146). -/
def State.loadOffsetHigh (s : State) : Byte := s.loadOffset.extractLsb' 8 8

/-- The low byte of the load offset, `loadOffset[7:0]` (R146). -/
def State.loadOffsetLow (s : State) : Byte := s.loadOffset.extractLsb' 0 8

/-- The sink address of the current payload byte, modulo 2^32 (R61, R165). -/
def State.dataAddress (s : State) : Addr :=
  s.extensionBase + s.loadOffset.setWidth 32 + s.recordByteIndex.setWidth 32

/-- The digits of a payload of `length` bytes, `zext_9(length) * 2` (R149). -/
def payloadDigits (length : Byte) : BitVec 9 := length.setWidth 9 * 2

/-- The record types with an extension payload: 0x02 and 0x04 (R16, R78). -/
def isExtensionType (t : Byte) : Bool := t == 0x02 || t == 0x04

/-- The 3-bit encoding of the phase (R85). -/
def Phase.code : Phase → BitVec 3
  | .awaitMark => 0
  | .awaitLength => 1
  | .awaitAddress => 2
  | .awaitType => 3
  | .awaitPayload => 4
  | .awaitChecksum => 5
  | .reserved6 => 6
  | .reserved7 => 7

/-- The phase of a 3-bit code (R85). -/
def Phase.ofCode (c : BitVec 3) : Phase :=
  if c = 0 then .awaitMark
  else if c = 1 then .awaitLength
  else if c = 2 then .awaitAddress
  else if c = 3 then .awaitType
  else if c = 4 then .awaitPayload
  else if c = 5 then .awaitChecksum
  else if c = 6 then .reserved6
  else .reserved7

/-- A digit phase: any of the five phases that wait for digits (R16). -/
def Phase.isDigit : Phase → Bool
  | .awaitLength => true
  | .awaitAddress => true
  | .awaitType => true
  | .awaitPayload => true
  | .awaitChecksum => true
  | .awaitMark => false
  | .reserved6 => false
  | .reserved7 => false

end Sys2Proof.Machine
end

