-- ==== Sys2Proof/Machine/Flags.lean ====
section
/-! DEFINITION. The block has no flags (10_state.md R31); what takes their place is here: the checksum computations
(44_checksum_validator.md R190, R191) and the status word (30_encoding.md R80). -/

namespace Sys2Proof.Machine

/-- `accumulate(v)` on a sum: addition modulo 256 (R190). -/
def addToSum (sum v : Byte) : Byte := sum + v

/-- `finalize()`: the two's complement of a running sum (R191). -/
def finalize (sum : Byte) : Byte := ~~~sum + 1

/-- The status of a completed record (R193, R194, order of R219). -/
def recordStatus (recType sum target : Byte) : Status :=
  if recType = 0x01 then .end_
  else if finalize sum ≠ target then .checksumError
  else .continue_

/-- The status a sink's answer puts on the response port, whose `Ext` code has `EXT_CODE_W` bits (R9, R80). -/
def statusOnPort (extCodeW : Nat) : Status → Status
  | .own k => .own k
  | .ext c => .ext (c % 2 ^ extCodeW)

/-- The status word `{EXT, CODE}` of `1 + max(8, EXT_CODE_W)` bits (R80). -/
def statusWord (extCodeW : Nat) : Status → BitVec (1 + max 8 extCodeW)
  | .own k => (0 : BitVec 1) ++ k.setWidth (max 8 extCodeW)
  | .ext c => (1 : BitVec 1) ++ BitVec.ofNat (max 8 extCodeW) c

end Sys2Proof.Machine
end

