-- ==== Sys2Proof/Machine/Ops.lean ====
section
/-! DEFINITION. The named operations over State: returning a status, the checksum and phase updates the rules share,
the sink port, taking a fault, the power-on reset, running a command and taking the next input. -/

namespace Sys2Proof.Machine

/-- `return st` (R13): the step's result is the status `st`, `recStart = 0` (R84). -/
def State.respond (s : State) (st : Status) : State :=
  { s with result := { status := some st, recStart := false } }

/-- `emit RecordStart; return Own(Continue)` (R84, R141). -/
def State.respondRecordStart (s : State) : State :=
  { s with result := { status := some .continue_, recStart := true } }

/-- The result of NOP, INIT and BEGIN: `statusValid = 0`, `recStart = 0` (R84). -/
def State.respondNothing (s : State) : State :=
  { s with result := Result.nothing }

/-- The decrement of `remainingDigits` by a digit step (R124). -/
def State.takeDigit (s : State) : State :=
  { s with remainingDigits := s.remainingDigits - 1 }

/-- `accumulate(v)` (R190). -/
def State.accumulate (s : State) (v : Byte) : State :=
  { s with runningChecksum := addToSum s.runningChecksum v }

/-- Enter a phase that expects `digits` digits (R85). -/
def State.enter (s : State) (p : Phase) (digits : BitVec 9) : State :=
  { s with phase := p, remainingDigits := digits }

/-- Send a request on the sink port: it joins the history (R83, R166). -/
def State.sendRequest (s : State) (r : SinkRequest) : State :=
  { s with sinkLog := s.sinkLog ++ [r] }

/-- `SinkWrite(addr, data)` (R166): the request, and the one status the sink answers with, as it stands on the port.
A sink that re-enters the block is refused (R217); one that never answers leaves the step stuck (R253). -/
def sinkWrite (addr : Addr) (data : Byte) (s : State) : Except Stop (State × Status) :=
  match s.sinkScript with
  | .answers st :: rest =>
    .ok ({ s.sendRequest ⟨addr, data⟩ with sinkScript := rest }, statusOnPort s.params.extCodeW st)
  | .reenters w :: _ => .error (.refuse (.sinkReentry w))
  | .silent :: _ => .error (.stuck .sinkNeverAnswers)
  | [] =>
    .ok (s.sendRequest ⟨addr, data⟩, statusOnPort s.params.extCodeW (Config.sink addr data s.sinkLog))

/-- The last byte sent to an address, if any: a reading of the request history, for claims (R50, log 14). -/
def sentByte (log : List SinkRequest) (a : Addr) : Option Byte :=
  (log.reverse.find? fun r => r.addr = a).map (·.data)

/-- Taking a fault (R216): the fault state records the reason; no register is written, no request is issued, and no
status is returned (log 4, 8). It is applied to the state the step started from. -/
def takeFault (r : FaultReason) (s : State) : State :=
  { s with fault := some r, result := Result.nothing }

/-- The power-on reset (R240, R243): the registers of R21 take their power-on values and the recorded fault is
cleared. What is outside the block stays (log 3). -/
def powerOnReset (s : State) : State :=
  { State.reset with sinkLog := s.sinkLog, params := s.params, sinkScript := s.sinkScript, inputs := s.inputs }

/-- One command: refused in the fault state (R216); else its rule runs from `s`, and a fault it meets is taken on `s`
itself, undoing what the rule wrote. -/
def runCommand (rule : State → Except Stop State) (s : State) : Host.Outcome State Fault Refusal :=
  match s.fault with
  | some r => .refused (.faultRecorded r)
  | none =>
    match rule s with
    | .ok t => .next t
    | .error (.fault r) => .next (takeFault r s)
    | .error (.stuck f) => .fault f
    | .error (.refuse r) => .refused r

/-- Take the next input of the host (log 1). -/
def nextInput (s : State) : Option (Input × State) :=
  match s.inputs with
  | [] => none
  | i :: rest => some (i, { s with inputs := rest })

end Sys2Proof.Machine
end

