-- ==== Sys2Proof/Machine/Checksum.lean ====
section
/-! DEFINITION. The checksum field and the end of a record (44_checksum_validator.md). -/

namespace Sys2Proof.Machine

/-- `ChecksumComplete()` (R193, R194). -/
def checksumComplete (s : State) : State :=
  { s with phase := .awaitMark }.respond (recordStatus s.recType s.runningChecksum s.targetChecksum)

/-- `ChecksumDigit(n, r)` (R192). -/
def checksumDigit (n : Nibble) (r : Nat) (s : State) : Except Stop State :=
  let placed := { s with targetChecksum := insertDigit s.targetChecksum n r }
  .ok (if r = 0 then checksumComplete placed else placed.respond .continue_)

end Sys2Proof.Machine
end

