-- ==== Sys2Proof/Machine/Payload.lean ====
section
/-! DEFINITION. The payload phase, data dispatch and address extension (43_payload_extension.md). -/

namespace Sys2Proof.Machine

/-- `DataByte()` (R165): `UnboundSink` comes before the request (R219). -/
def dataByte (s : State) : Except Stop State :=
  if s.cbBound then do
    let (sent, st) ← sinkWrite s.dataAddress s.pendingByte s
    .ok ({ sent with recordByteIndex := sent.recordByteIndex + 1 }.respond st)
  else .error (.fault .unboundSink)

/-- `SegmentScale()`, the x16 of type 02 (R171). -/
def segmentScale (s : State) : State :=
  { s with extensionBase := s.extensionBase <<< 4 }

/-- `ExtPlace()` (R170, R173). -/
def extPlace (s : State) : State :=
  let k := s.extensionBytePos
  if k ≤ 3 then
    let placed := { s with extensionBase := s.extensionBase ||| byteAtSlot s.pendingByte k }
    let scaled := if s.recType = 0x02 ∧ k = 0 then segmentScale placed else placed
    { scaled with extensionBytePos := k - 1 }
  else s

/-- `ByteComplete()` (R162, R163). -/
def byteComplete (s : State) : Except Stop State :=
  let summed := s.accumulate s.pendingByte
  if s.recType = 0x00 then dataByte summed
  else if isExtensionType s.recType then .ok ((extPlace summed).respond .continue_)
  else .ok (summed.respond .continue_)

/-- `PayloadComplete()` (R161). -/
def payloadComplete (s : State) : State := s.enter .awaitChecksum 2

/-- `PayloadDigit(n, r)` (R160). -/
def payloadDigit (n : Nibble) (r : Nat) (s : State) : Except Stop State := do
  let placed := { s with pendingByte := insertDigit s.pendingByte n (payloadSlot r) }
  let done ← if payloadSlot r = 0 then byteComplete placed else .ok (placed.respond .continue_)
  .ok (if r = 0 then payloadComplete done else done)

end Sys2Proof.Machine
end

