-- ==== Sys2Proof/Machine/Record.lean ====
section
/-! DEFINITION. The record state machine's header phases (42_record_fsm.md). -/

namespace Sys2Proof.Machine

/-- `StartRecord()` (R141). -/
def startRecord (s : State) : State :=
  { s with
    mark := 0x3A
    length := 0x00
    loadOffset := 0x0000
    recType := 0x00
    pendingByte := 0x00
    targetChecksum := 0x00
    runningChecksum := 0x00
    recordByteIndex := 0x00
    phase := .awaitLength
    remainingDigits := 2 }

/-- `LengthComplete()` (R143). -/
def lengthComplete (s : State) : State :=
  (s.accumulate s.length).enter .awaitAddress 4

/-- `LengthDigit(n, r)` (R142). -/
def lengthDigit (n : Nibble) (r : Nat) (s : State) : Except Stop State :=
  let placed := { s with length := insertDigit s.length n r }
  .ok ((if r = 0 then lengthComplete placed else placed).respond .continue_)

/-- `AddressComplete()` (R146). -/
def addressComplete (s : State) : State :=
  ((s.accumulate s.loadOffsetHigh).accumulate s.loadOffsetLow).enter .awaitType 2

/-- `AddressDigit(n, r)` (R145). -/
def addressDigit (n : Nibble) (r : Nat) (s : State) : Except Stop State :=
  let placed := { s with loadOffset := insertDigit s.loadOffset n r }
  .ok ((if r = 0 then addressComplete placed else placed).respond .continue_)

/-- `ExtensionInit()` (R150). -/
def extensionInit (s : State) : State :=
  { s with extensionBase := 0x00000000, extensionBytePos := if s.recType = 0x02 then 1 else 3 }

/-- `TypeComplete()` (R149). -/
def typeComplete (s : State) : State :=
  let summed := s.accumulate s.recType
  let extended := if isExtensionType s.recType then extensionInit summed else summed
  if s.length ≠ 0 then extended.enter .awaitPayload (payloadDigits s.length)
  else extended.enter .awaitChecksum 2

/-- `TypeDigit(n, r)` (R148). -/
def typeDigit (n : Nibble) (r : Nat) (s : State) : Except Stop State :=
  let placed := { s with recType := insertDigit s.recType n r }
  .ok ((if r = 0 then typeComplete placed else placed).respond .continue_)

end Sys2Proof.Machine
end

