-- ==== Sys2Proof/Machine/Feed.lean ====
section
/-! DEFINITION. FEED: the digit step (41_nibble_parser.md R124), the dispatch (40_interface_ops.md R103) and the
meaning of every FEED row (R104 to R107). -/

namespace Sys2Proof.Machine

/-- `DigitStep(b)` with the digit rule of the phase (R124): underflow first (R219), then the character, under the
slot policy (R125). -/
def digitStep (rule : Nibble → Nat → State → Except Stop State) (b : Byte) (s : State) : Except Stop State :=
  if s.remainingDigits = 0 then .error (.fault .counterUnderflow)
  else
    match nibble b, s.params.slotPolicy with
    | some n, _ => rule n s.takeDigit.slot s.takeDigit
    | none, .retain => .ok (s.respond .invalidInput)
    | none, .consume => .ok (s.takeDigit.respond .invalidInput)

/-- AwaitMark: `:` starts a record (R141), every other byte is ignored (R140). -/
def markStep (b : Byte) (s : State) : Except Stop State :=
  if b = markChar then .ok (startRecord s).respondRecordStart else .ok (s.respond .continue_)

/-- `FEED(b)` (R103). -/
def feed (b : Byte) (s : State) : Except Stop State :=
  if isLineEnd b then .ok (s.respond .continue_)
  else
    match s.phase with
    | .awaitMark => markStep b s
    | .awaitLength => digitStep lengthDigit b s
    | .awaitAddress => digitStep addressDigit b s
    | .awaitType => digitStep typeDigit b s
    | .awaitPayload => digitStep payloadDigit b s
    | .awaitChecksum => digitStep checksumDigit b s
    | .reserved6 => .error (.fault .illegalPhase)
    | .reserved7 => .error (.fault .illegalPhase)

/-- FEED.CR (R104): byte 0x0D. -/
def execFeedCr (s : State) : Host.Outcome State Fault Refusal := runCommand (feed 0x0D) s

/-- FEED.LF (R104): byte 0x0A. -/
def execFeedLf (s : State) : Host.Outcome State Fault Refusal := runCommand (feed 0x0A) s

/-- FEED.MARK (R105): byte 0x3A. -/
def execFeedMark (s : State) : Host.Outcome State Fault Refusal := runCommand (feed 0x3A) s

/-- FEED.HEX_0 (R106): byte 0x30. -/
def execFeedHex0 (s : State) : Host.Outcome State Fault Refusal := runCommand (feed 0x30) s

/-- FEED.HEX_1 (R106): byte 0x31. -/
def execFeedHex1 (s : State) : Host.Outcome State Fault Refusal := runCommand (feed 0x31) s

/-- FEED.HEX_2 (R106): byte 0x32. -/
def execFeedHex2 (s : State) : Host.Outcome State Fault Refusal := runCommand (feed 0x32) s

/-- FEED.HEX_3 (R106): byte 0x33. -/
def execFeedHex3 (s : State) : Host.Outcome State Fault Refusal := runCommand (feed 0x33) s

/-- FEED.HEX_4 (R106): byte 0x34. -/
def execFeedHex4 (s : State) : Host.Outcome State Fault Refusal := runCommand (feed 0x34) s

/-- FEED.HEX_5 (R106): byte 0x35. -/
def execFeedHex5 (s : State) : Host.Outcome State Fault Refusal := runCommand (feed 0x35) s

/-- FEED.HEX_6 (R106): byte 0x36. -/
def execFeedHex6 (s : State) : Host.Outcome State Fault Refusal := runCommand (feed 0x36) s

/-- FEED.HEX_7 (R106): byte 0x37. -/
def execFeedHex7 (s : State) : Host.Outcome State Fault Refusal := runCommand (feed 0x37) s

/-- FEED.HEX_8 (R106): byte 0x38. -/
def execFeedHex8 (s : State) : Host.Outcome State Fault Refusal := runCommand (feed 0x38) s

/-- FEED.HEX_9 (R106): byte 0x39. -/
def execFeedHex9 (s : State) : Host.Outcome State Fault Refusal := runCommand (feed 0x39) s

/-- FEED.HEX_A (R106): byte 0x41. -/
def execFeedHexUpperA (s : State) : Host.Outcome State Fault Refusal := runCommand (feed 0x41) s

/-- FEED.HEX_B (R106): byte 0x42. -/
def execFeedHexUpperB (s : State) : Host.Outcome State Fault Refusal := runCommand (feed 0x42) s

/-- FEED.HEX_C (R106): byte 0x43. -/
def execFeedHexUpperC (s : State) : Host.Outcome State Fault Refusal := runCommand (feed 0x43) s

/-- FEED.HEX_D (R106): byte 0x44. -/
def execFeedHexUpperD (s : State) : Host.Outcome State Fault Refusal := runCommand (feed 0x44) s

/-- FEED.HEX_E (R106): byte 0x45. -/
def execFeedHexUpperE (s : State) : Host.Outcome State Fault Refusal := runCommand (feed 0x45) s

/-- FEED.HEX_F (R106): byte 0x46. -/
def execFeedHexUpperF (s : State) : Host.Outcome State Fault Refusal := runCommand (feed 0x46) s

/-- FEED.HEX_a (R106): byte 0x61. -/
def execFeedHexLowerA (s : State) : Host.Outcome State Fault Refusal := runCommand (feed 0x61) s

/-- FEED.HEX_b (R106): byte 0x62. -/
def execFeedHexLowerB (s : State) : Host.Outcome State Fault Refusal := runCommand (feed 0x62) s

/-- FEED.HEX_c (R106): byte 0x63. -/
def execFeedHexLowerC (s : State) : Host.Outcome State Fault Refusal := runCommand (feed 0x63) s

/-- FEED.HEX_d (R106): byte 0x64. -/
def execFeedHexLowerD (s : State) : Host.Outcome State Fault Refusal := runCommand (feed 0x64) s

/-- FEED.HEX_e (R106): byte 0x65. -/
def execFeedHexLowerE (s : State) : Host.Outcome State Fault Refusal := runCommand (feed 0x65) s

/-- FEED.HEX_f (R106): byte 0x66. -/
def execFeedHexLowerF (s : State) : Host.Outcome State Fault Refusal := runCommand (feed 0x66) s

/-- FEED.OTHER (R107): a byte of no other class. -/
def execFeedOther (char : Byte) (s : State) : Host.Outcome State Fault Refusal := runCommand (feed char) s

end Sys2Proof.Machine
end

