-- ==== Sys2Proof/Machine/Interface.lean ====
section
/-! DEFINITION. The commands NOP, INIT and BEGIN (40_interface_ops.md R100 to R102). -/

namespace Sys2Proof.Machine

/-- INIT's effect: bind the sink (R100). -/
def bindSink (s : State) : State := { s with cbBound := true }

/-- BEGIN's effect: start a stream (R101). -/
def beginStream (s : State) : State := { s with phase := .awaitMark, extensionBase := 0x00000000 }

/-- NOP (R102): no state change; the byte is ignored. -/
def execNop (_ignored : Byte) (s : State) : Host.Outcome State Fault Refusal :=
  runCommand (fun s => .ok s.respondNothing) s

/-- INIT (R100); the byte is ignored. -/
def execInit (_ignored : Byte) (s : State) : Host.Outcome State Fault Refusal :=
  runCommand (fun s => .ok (bindSink s).respondNothing) s

/-- BEGIN (R101); the byte is ignored. -/
def execBegin (_ignored : Byte) (s : State) : Host.Outcome State Fault Refusal :=
  runCommand (fun s => .ok (beginStream s).respondNothing) s

end Sys2Proof.Machine
end

