-- ==== Sys2Proof/Machine/Dispatch.lean ====
section
/-! DEFINITION. One arm per command: the direct call of its meaning. -/

namespace Sys2Proof.Machine

def exec (i : Instr) (s : State) : Host.Outcome State Fault Refusal :=
  match i with
  | .nop b => Sys2Proof.Machine.execNop b s
  | .init b => Sys2Proof.Machine.execInit b s
  | .begin b => Sys2Proof.Machine.execBegin b s
  | .feedCr => Sys2Proof.Machine.execFeedCr s
  | .feedLf => Sys2Proof.Machine.execFeedLf s
  | .feedMark => Sys2Proof.Machine.execFeedMark s
  | .feedHex0 => Sys2Proof.Machine.execFeedHex0 s
  | .feedHex1 => Sys2Proof.Machine.execFeedHex1 s
  | .feedHex2 => Sys2Proof.Machine.execFeedHex2 s
  | .feedHex3 => Sys2Proof.Machine.execFeedHex3 s
  | .feedHex4 => Sys2Proof.Machine.execFeedHex4 s
  | .feedHex5 => Sys2Proof.Machine.execFeedHex5 s
  | .feedHex6 => Sys2Proof.Machine.execFeedHex6 s
  | .feedHex7 => Sys2Proof.Machine.execFeedHex7 s
  | .feedHex8 => Sys2Proof.Machine.execFeedHex8 s
  | .feedHex9 => Sys2Proof.Machine.execFeedHex9 s
  | .feedHexUpperA => Sys2Proof.Machine.execFeedHexUpperA s
  | .feedHexUpperB => Sys2Proof.Machine.execFeedHexUpperB s
  | .feedHexUpperC => Sys2Proof.Machine.execFeedHexUpperC s
  | .feedHexUpperD => Sys2Proof.Machine.execFeedHexUpperD s
  | .feedHexUpperE => Sys2Proof.Machine.execFeedHexUpperE s
  | .feedHexUpperF => Sys2Proof.Machine.execFeedHexUpperF s
  | .feedHexLowerA => Sys2Proof.Machine.execFeedHexLowerA s
  | .feedHexLowerB => Sys2Proof.Machine.execFeedHexLowerB s
  | .feedHexLowerC => Sys2Proof.Machine.execFeedHexLowerC s
  | .feedHexLowerD => Sys2Proof.Machine.execFeedHexLowerD s
  | .feedHexLowerE => Sys2Proof.Machine.execFeedHexLowerE s
  | .feedHexLowerF => Sys2Proof.Machine.execFeedHexLowerF s
  | .feedOther b => Sys2Proof.Machine.execFeedOther b s

end Sys2Proof.Machine
end

