-- ==== Sys2Proof/Machine/Step.lean ====
section
/-! DEFINITION. One step of the machine: the next input of the host, decoded and run (40_interface_ops.md R103, R110;
log 1, 2, 3). -/

namespace Sys2Proof.Machine

/-- One step: with no input the block is idle and keeps every register (R17, R229); a reset input resets it (R240);
a command word runs the command it decodes to. -/
def step (s : State) : Host.Outcome State Fault Refusal :=
  match nextInput s with
  | none => .next s
  | some (.powerOnReset, t) => .next (powerOnReset t)
  | some (.command w, t) =>
    match decode w with
    | some i => exec i t
    | none => .refused (.noRow w)

/-- `s` with a table word presented as the host's next command (log 1). -/
def State.withFetchWord (s : State) (nbits w : Nat) : State :=
  { s with inputs := .command (tableWord nbits w) :: s.inputs }

end Sys2Proof.Machine
end

