-- ==== Sys2Proof/Safety.lean ====
section
/-! DEFINITION. The terms the claims are stated in: kinds of instruction, what a command asks of the sink, the
invariants of 10_state.md R34, safe states, and record text (30_encoding.md R75). Nothing here is called by the
machine. -/

namespace Sys2Proof

/-- The value of a hex character, as the opcode table and R121 list it; `none` for every other command. -/
def Instr.hexDigit : Instr → Option Nibble
  | .nop _ => none
  | .init _ => none
  | .begin _ => none
  | .feedCr => none
  | .feedLf => none
  | .feedMark => none
  | .feedHex0 => some 0
  | .feedHex1 => some 1
  | .feedHex2 => some 2
  | .feedHex3 => some 3
  | .feedHex4 => some 4
  | .feedHex5 => some 5
  | .feedHex6 => some 6
  | .feedHex7 => some 7
  | .feedHex8 => some 8
  | .feedHex9 => some 9
  | .feedHexUpperA => some 10
  | .feedHexUpperB => some 11
  | .feedHexUpperC => some 12
  | .feedHexUpperD => some 13
  | .feedHexUpperE => some 14
  | .feedHexUpperF => some 15
  | .feedHexLowerA => some 10
  | .feedHexLowerB => some 11
  | .feedHexLowerC => some 12
  | .feedHexLowerD => some 13
  | .feedHexLowerE => some 14
  | .feedHexLowerF => some 15
  | .feedOther _ => none

/-- A FEED command (R103). -/
def Instr.isFeed (i : Instr) : Bool := i.cmd == 3

/-- FEED.CR or FEED.LF (R104). -/
def Instr.isLineEnd (i : Instr) : Bool := i == .feedCr || i == .feedLf

/-- A FEED of a byte that is no hex digit and no line end: FEED.MARK or FEED.OTHER (R130). -/
def Instr.isInvalidDigit (i : Instr) : Bool := i.isFeed && !i.isLineEnd && i.hexDigit.isNone

/-- Whether a word belongs to a row of the opcode table (R89). -/
def OpcodeRow.hit (r : OpcodeRow) (w : CmdWord) : Bool := (w &&& r.mask) == r.pattern

namespace Machine

/-- The registers of R21 are equal. -/
structure SameRegisters (s t : State) : Prop where
  phase : s.phase = t.phase
  remainingDigits : s.remainingDigits = t.remainingDigits
  mark : s.mark = t.mark
  length : s.length = t.length
  loadOffset : s.loadOffset = t.loadOffset
  recType : s.recType = t.recType
  pendingByte : s.pendingByte = t.pendingByte
  targetChecksum : s.targetChecksum = t.targetChecksum
  extensionBase : s.extensionBase = t.extensionBase
  extensionBytePos : s.extensionBytePos = t.extensionBytePos
  recordByteIndex : s.recordByteIndex = t.recordByteIndex
  runningChecksum : s.runningChecksum = t.runningChecksum
  cbBound : s.cbBound = t.cbBound

/-- The result of a FEED that returns `st` without a record start (R84). -/
def Result.returns (st : Status) : Result := { status := some st, recStart := false }

/-- How the sink takes the next request: its status on the port and the script that remains, or `none` if it
re-enters or stays silent (R166, log 5). -/
def sinkAnswer (s : State) (addr : Addr) (data : Byte) : Option (Status × List SinkResponse) :=
  match s.sinkScript with
  | [] => some (statusOnPort s.params.extCodeW (Config.sink addr data s.sinkLog), [])
  | .answers st :: rest => some (statusOnPort s.params.extCodeW st, rest)
  | .reenters _ :: _ => none
  | .silent :: _ => none

/-- The command completes a payload byte: a hex digit in AwaitPayload whose slot after the decrement is even (R129). -/
def completesByte (i : Instr) (s : State) : Bool :=
  i.hexDigit.isSome && s.phase == .awaitPayload && s.remainingDigits != 0 &&
    (s.remainingDigits.toNat - 1) % 2 == 0

/-- The request the command sends to the sink, if any (R58, R165). -/
def requestOf (i : Instr) (s : State) : Option SinkRequest :=
  match i.hexDigit with
  | none => none
  | some n =>
    if completesByte i s ∧ s.recType = 0x00 ∧ s.cbBound = true then
      some ⟨s.dataAddress, insertDigit s.pendingByte n 0⟩
    else none

/-- Parts 1 and 4 of R34 and the counter bounds that hold under either slot policy (R35). -/
structure LegalState (s : State) : Prop where
  phaseLegal : s.phase ≠ .reserved6 ∧ s.phase ≠ .reserved7
  extensionPos : s.extensionBytePos = 0 ∨ s.extensionBytePos = 1 ∨ s.extensionBytePos = 2 ∨
    s.extensionBytePos = 3 ∨ s.extensionBytePos = 7
  lengthCount : s.phase = .awaitLength → s.remainingDigits.toNat ≤ 2
  addressCount : s.phase = .awaitAddress → s.remainingDigits.toNat ≤ 4
  typeCount : s.phase = .awaitType → s.remainingDigits.toNat ≤ 2
  payloadCount : s.phase = .awaitPayload → s.length ≠ 0 ∧ s.remainingDigits.toNat ≤ 2 * s.length.toNat
  checksumCount : s.phase = .awaitChecksum → s.remainingDigits.toNat ≤ 2

/-- The invariant of R34 under `Retain`. The last fields of part 5 also say that a field later in the record is still
0, and `headerIndex` that no payload byte has been counted before the payload: both are needed to carry parts 3 and 5
from one step to the next. -/
structure RetainInv (s : State) : Prop where
  legal : LegalState s
  /-- Part 2: in a digit phase at least one digit is still required. -/
  counting : s.phase.isDigit = true → s.remainingDigits ≠ 0
  /-- Part 3. -/
  payloadIndex : s.phase = .awaitPayload → s.recType = 0x00 →
    s.recordByteIndex.toNat = (2 * s.length.toNat - s.remainingDigits.toNat) / 2
  headerIndex : s.phase = .awaitLength ∨ s.phase = .awaitAddress ∨ s.phase = .awaitType →
    s.recordByteIndex = 0
  /-- Part 5: the slots of the field being filled that no digit has filled are 0. -/
  lengthSlots : s.phase = .awaitLength → s.length.toNat % 16 ^ s.remainingDigits.toNat = 0
  addressSlots : s.phase = .awaitAddress → s.loadOffset.toNat % 16 ^ s.remainingDigits.toNat = 0
  typeSlots : s.phase = .awaitType → s.recType.toNat % 16 ^ s.remainingDigits.toNat = 0
  checksumSlots : s.phase = .awaitChecksum → s.targetChecksum.toNat % 16 ^ s.remainingDigits.toNat = 0
  laterAddress : s.phase = .awaitLength → s.loadOffset = 0
  laterType : s.phase = .awaitLength ∨ s.phase = .awaitAddress → s.recType = 0
  laterChecksum : s.phase = .awaitLength ∨ s.phase = .awaitAddress ∨ s.phase = .awaitType ∨
    s.phase = .awaitPayload → s.targetChecksum = 0

/-- A safe state: no fault is recorded (R216). -/
def Safe (s : State) : Prop := s.fault = none

/-- A run in which the host has booted the block as R244 asks (the sink is bound, and nobody resets the block), the
policy is `Retain`, and the sink keeps its port's rules (R246, U11). -/
structure Booted (s : State) : Prop where
  safe : Safe s
  bound : s.cbBound = true
  retain : s.params.slotPolicy = .retain
  sinkKeepsRules : ∀ r ∈ s.sinkScript, ∃ st, r = .answers st
  noReset : ∀ x ∈ s.inputs, x ≠ .powerOnReset

/-- The commands one after the other, stopping at the first stop. -/
def runAll : List Instr → State → Host.Outcome State Fault Refusal
  | [], s => .next s
  | i :: rest, s =>
    match exec i s with
    | .next t => runAll rest t
    | .fault f => .fault f
    | .refused r => .refused r

/-- The upper-case hex character of a nibble (R88, R121). -/
def hexChar (n : Nibble) : Byte := if n < 10 then 0x30 + n.setWidth 8 else 0x37 + n.setWidth 8

/-- The two hex characters of a byte, the more significant first (R52). -/
def byteText (b : Byte) : List Byte := [hexChar (b.extractLsb' 4 4), hexChar (b.extractLsb' 0 4)]

/-- The text of a record `:LLAAAATTDD...DDCC` (R75, R88). -/
def recordText (aaaa : BitVec 16) (tt : Byte) (dd : List Byte) (cc : Byte) : List Byte :=
  markChar :: byteText (BitVec.ofNat 8 dd.length) ++ byteText (aaaa.extractLsb' 8 8) ++
    byteText (aaaa.extractLsb' 0 8) ++ byteText tt ++ dd.flatMap byteText ++ byteText cc

/-- The sum of the field bytes of a record without its checksum field (R77, R190). -/
def recordSum (aaaa : BitVec 16) (tt : Byte) (dd : List Byte) : Byte :=
  BitVec.ofNat 8 dd.length + aaaa.extractLsb' 8 8 + aaaa.extractLsb' 0 8 + tt + dd.foldl (· + ·) 0

/-- `s` with a text as the host's whole input, one FEED per character (R88). -/
def State.fed (s : State) (text : List Byte) : State :=
  { s with inputs := text.map fun b => .command (cmdWord 3 b) }

/-- The requests of a data record's bytes, from index `k` on (R55, R169). -/
def dataRequests (base : Addr) : Nat → List Byte → List SinkRequest
  | _, [] => []
  | k, b :: rest => ⟨base + BitVec.ofNat 32 k, b⟩ :: dataRequests base (k + 1) rest

end Machine

end Sys2Proof
end

