-- ==== Sys2Proof/Certificates/Slice0/Obligations.lean ====
section
/-! DEFINITION. The statements for the provers. Each cites the rule of spec/ it formalises. -/

open Sys2Proof Sys2Proof.Machine

/-! ## Encoding -/

/-- R70: the two command bits select the command, and the byte is its operand: for FEED the input character, for NOP,
INIT and BEGIN ignored. -/
def Obligations.CommandCodeSelectsCommand : Prop :=
  ∀ b : Byte,
    decode (cmdWord 0 b) = some (.nop b) ∧ decode (cmdWord 1 b) = some (.init b) ∧
    decode (cmdWord 2 b) = some (.begin b) ∧
    (∃ i, decode (cmdWord 3 b) = some i ∧ i.isFeed = true ∧ i.byte = b) ∧
    ∀ (b' : Byte) (s : State), exec (.nop b) s = exec (.nop b') s ∧ exec (.init b) s = exec (.init b') s ∧
      exec (.begin b) s = exec (.begin b') s

/-- R71: every one of the 1024 words decodes to a well-formed command, and encoding that command gives the word back.
-/
def Obligations.EveryWordDecodesAndEncodesBack : Prop :=
  ∀ w : CmdWord, ∃ i, decode w = some i ∧ i.wf = true ∧ encode i = w

/-- R70, R89: decoding the word of a well-formed command gives the command back, for every operand. -/
def Obligations.DecodeEncodeAgree : Prop :=
  ∀ i : Instr, i.wf = true → decode (encode i) = some i

/-- R89: the decoder takes the first row the word hits, and no word hits two rows unless the second is FEED.OTHER, the
last row. -/
def Obligations.OpcodeTableUnambiguous : Prop :=
  opcodeRows.length = 29 ∧ ∀ w : CmdWord, ∃ r rest, opcodeRows.filter (·.hit w) = r :: rest ∧
    decode w = some (r.build (byteOf w)) ∧
    (rest = [] ∨ ∃ other, rest = [other] ∧ other.pattern = 0x300 ∧ other.mask = 0x300 ∧
      opcodeRows.getLast?.map (fun l => (l.pattern, l.mask)) = some (0x300, 0x300))

/-- R72: the five byte classes of FEED, over all 256 values, and the size of the class OTHER. -/
def Obligations.FeedByteClasses : Prop :=
  (∀ b : Byte,
    (b = 0x0D → decode (cmdWord 3 b) = some .feedCr) ∧
    (b = 0x0A → decode (cmdWord 3 b) = some .feedLf) ∧
    (b = 0x3A → decode (cmdWord 3 b) = some .feedMark) ∧
    ((0x30 ≤ b ∧ b ≤ 0x39) ∨ (0x41 ≤ b ∧ b ≤ 0x46) ∨ (0x61 ≤ b ∧ b ≤ 0x66) →
      ((decode (cmdWord 3 b)).bind Instr.hexDigit).isSome = true) ∧
    (b ≤ 0x09 ∨ b = 0x0B ∨ b = 0x0C ∨ (0x0E ≤ b ∧ b ≤ 0x2F) ∨ (0x3B ≤ b ∧ b ≤ 0x40) ∨
        (0x47 ≤ b ∧ b ≤ 0x60) ∨ 0x67 ≤ b →
      decode (cmdWord 3 b) = some (.feedOther b))) ∧
  ((List.range 256).filter fun n => decode (cmdWord 3 (BitVec.ofNat 8 n)) == some (.feedOther (BitVec.ofNat 8 n))).length
    = 231

/-- The opcode table's words, written out bit by bit, decode to the rows they stand for (a sanity statement). -/
def Obligations.TableWordsDecode : Prop :=
  decode 0b0000000000 = some (.nop 0x00) ∧ decode 0b0100000000 = some (.init 0x00) ∧
  decode 0b1000000000 = some (.begin 0x00) ∧ decode 0b1100001101 = some .feedCr ∧
  decode 0b1100001010 = some .feedLf ∧ decode 0b1100111010 = some .feedMark ∧
  decode 0b1100110000 = some .feedHex0 ∧ decode 0b1100111001 = some .feedHex9 ∧
  decode 0b1101000110 = some .feedHexUpperF ∧ decode 0b1101100001 = some .feedHexLowerA ∧
  decode 0b1101000111 = some (.feedOther 0x47)

/-- R120, R121: the nibble of every byte. -/
def Obligations.NibbleMapping : Prop :=
  ∀ b : Byte,
    (0x30 ≤ b ∧ b ≤ 0x39 → (nibble b).map (·.toNat) = some (b.toNat - 0x30)) ∧
    (0x41 ≤ b ∧ b ≤ 0x46 → (nibble b).map (·.toNat) = some (b.toNat - 0x41 + 10)) ∧
    (0x61 ≤ b ∧ b ≤ 0x66 → (nibble b).map (·.toNat) = some (b.toNat - 0x61 + 10)) ∧
    (¬(0x30 ≤ b ∧ b ≤ 0x39) ∧ ¬(0x41 ≤ b ∧ b ≤ 0x46) ∧ ¬(0x61 ≤ b ∧ b ≤ 0x66) → nibble b = none)

/-- R122: `insertDigit` writes its nibble into its slot and leaves every other bit, at every width. -/
def Obligations.InsertDigitWritesOneSlot : Prop :=
  ∀ (w : Nat) (f : BitVec w) (n : Nibble) (p : Nat), 4 * p + 4 ≤ w → ∀ k : Nat, k < w →
    (insertDigit f n p).getLsbD k =
      if 4 * p ≤ k ∧ k < 4 * p + 4 then n.getLsbD (k - 4 * p) else f.getLsbD k

/-- R191, R195: `finalize` is the two's complement, and it equals the target exactly when sum and target add to 0
modulo 256. -/
def Obligations.FinalizeIsTwosComplement : Prop :=
  ∀ sum target : Byte,
    (finalize sum).toNat = (0x100 - sum.toNat) % 0x100 ∧
    (finalize sum = target ↔ (sum.toNat + target.toNat) % 256 = 0)

/-- R80: the status word at the default width: the block's own codes below 0x100, the sink's at 0x100 and above. -/
def Obligations.StatusWordLayout : Prop :=
  (statusWord 8 .continue_).toNat = 0x000 ∧ (statusWord 8 .end_).toNat = 0x001 ∧
  (statusWord 8 .invalidInput).toNat = 0x002 ∧ (statusWord 8 .checksumError).toNat = 0x003 ∧
  (∀ k : Byte, (statusWord 8 (.own k)).toNat = k.toNat) ∧
  (∀ c : Nat, c < 256 → (statusWord 8 (.ext c)).toNat = 0x100 + c)

/-- R80: two statuses of a port with codes of `w` bits have the same status word only if they are the same, so the
block's own statuses and the sink's stay distinguishable. -/
def Obligations.StatusWordsDistinguish : Prop :=
  ∀ (w : Nat) (a b : Status), 1 ≤ w → statusOnPort w a = a → statusOnPort w b = b →
    statusWord w a = statusWord w b → a = b

/-! ## Reset, step -/

/-- R240: the power-on values, of `State.reset` and of any state after the reset input; and BEGIN right after reset
leaves every register as it is. -/
def Obligations.PowerOnValues : Prop :=
  (∀ s : State, SameRegisters (powerOnReset s) State.reset ∧ (powerOnReset s).fault = none) ∧
  (State.reset.phase = .awaitMark ∧ State.reset.remainingDigits = 0 ∧ State.reset.mark = 0x00 ∧
    State.reset.length = 0x00 ∧ State.reset.recType = 0x00 ∧ State.reset.pendingByte = 0x00 ∧
    State.reset.targetChecksum = 0x00 ∧ State.reset.runningChecksum = 0x00 ∧
    State.reset.recordByteIndex = 0x00 ∧ State.reset.loadOffset = 0x0000 ∧
    State.reset.extensionBase = 0x00000000 ∧ State.reset.extensionBytePos = 0 ∧
    State.reset.cbBound = false ∧ State.reset.fault = none) ∧
  (∀ b : Byte, ∃ t, exec (.begin b) State.reset = .next t ∧ SameRegisters t State.reset)

/-- R216, R243: with a fault recorded every command is refused; the reset input clears the fault. That the refusal
names the reason, and that the inputs that follow a reset stay, are the model's own conventions (log 8, log 3). -/
def Obligations.RecordedFaultClearedOnlyByReset : Prop :=
  ∀ (s : State) (r : FaultReason), s.fault = some r →
    (∀ i : Instr, exec i s = .refused (.faultRecorded r)) ∧
    (∀ (w : CmdWord) (rest : List Input), step { s with inputs := .command w :: rest } = .refused (.faultRecorded r)) ∧
    (∀ rest : List Input, ∃ t, step { s with inputs := .powerOnReset :: rest } = .next t ∧ t.fault = none ∧
      SameRegisters t State.reset ∧ t.inputs = rest)

/-- A step runs the command that the next input's word decodes to, on the state without that input; a reset input
resets; with no input the block is idle and nothing changes (R17, R110, R229; the list of inputs is the model's own,
log 1 and 2). -/
def Obligations.StepRunsDecodedCommand : Prop :=
  ∀ (s : State) (rest : List Input),
    (∀ (w : CmdWord) (i : Instr), decode w = some i →
      step { s with inputs := .command w :: rest } = exec i { s with inputs := rest }) ∧
    step { s with inputs := .powerOnReset :: rest } = .next (powerOnReset { s with inputs := rest }) ∧
    step { s with inputs := [] } = .next { s with inputs := [] }

/-! ## NOP, INIT, BEGIN, line ends, AwaitMark -/

/-- R102: NOP changes no register, whatever its byte; it returns no status. -/
def Obligations.NopChangesNothing : Prop :=
  ∀ (b : Byte) (s : State), decode (cmdWord 0b00 b) = some (.nop b) ∧
    (s.fault = none → exec (.nop b) s = .next { s with result := Result.nothing })

/-- R100: INIT binds the sink and changes no other register, whatever its byte; it returns no status. -/
def Obligations.InitBindsSink : Prop :=
  ∀ (b : Byte) (s : State), decode (cmdWord 0b01 b) = some (.init b) ∧
    (s.fault = none → exec (.init b) s = .next { s with cbBound := true, result := Result.nothing })

/-- R101: BEGIN writes `phase` and `extensionBase` and no other register, whatever its byte; it returns no status. -/
def Obligations.BeginStartsStream : Prop :=
  ∀ (b : Byte) (s : State), decode (cmdWord 0b10 b) = some (.begin b) ∧
    (s.fault = none →
      exec (.begin b) s = .next { s with phase := .awaitMark, extensionBase := 0, result := Result.nothing })

/-- R104: CR and LF return Continue and write no register, in every phase and at every count. -/
def Obligations.LineEndsIgnored : Prop :=
  decode 0x30D = some .feedCr ∧ decode 0x30A = some .feedLf ∧
  ∀ (i : Instr) (s : State), i = .feedCr ∨ i = .feedLf → s.fault = none →
    exec i s = .next { s with result := Result.returns .continue_ }

/-- R140: AwaitMark ignores every byte but `:`: a hex digit or a byte of the class OTHER returns Continue and writes
no register. -/
def Obligations.AwaitMarkIgnoresOtherBytes : Prop :=
  ∀ (i : Instr) (s : State), i.wf = true → i.hexDigit.isSome = true ∨ (∃ b, i = .feedOther b) →
    s.fault = none → s.phase = .awaitMark →
    exec i s = .next { s with result := Result.returns .continue_ }

/-- R141: `:` in AwaitMark starts a record: every register of the record at its new value, the others kept, Continue
with `recStart = 1`. -/
def Obligations.MarkStartsRecord : Prop :=
  ∀ s : State, s.fault = none → s.phase = .awaitMark →
    exec .feedMark s = .next { s with
      mark := 0x3A, length := 0x00, loadOffset := 0x0000, recType := 0x00, pendingByte := 0x00,
      targetChecksum := 0x00, runningChecksum := 0x00, recordByteIndex := 0x00, phase := .awaitLength,
      remainingDigits := 2, result := { status := some .continue_, recStart := true } }

/-! ## Invalid characters, underflow, reserved phases -/

/-- R125: an invalid character in a digit phase returns InvalidInput; under `Retain` no register is written, under
`Consume` only the counter is decremented. -/
def Obligations.InvalidCharacterBySlotPolicy : Prop :=
  ∀ (i : Instr) (s : State), i.wf = true → i = .feedMark ∨ (∃ b, i = .feedOther b) → s.fault = none →
    s.phase.isDigit = true → s.remainingDigits ≠ 0 →
    (s.params.slotPolicy = .retain → exec i s = .next { s with result := Result.returns .invalidInput }) ∧
    (s.params.slotPolicy = .consume → exec i s = .next { s with
      remainingDigits := s.remainingDigits - 1, result := Result.returns .invalidInput })

/-- R127: a digit step, of a valid or an invalid byte, that finds the counter at 0 in a digit phase faults
CounterUnderflow and writes nothing; CR and LF are still ignored there and BEGIN still leaves. -/
def Obligations.DigitStepAtZeroFaults : Prop :=
  ∀ s : State, s.fault = none → s.phase.isDigit = true → s.remainingDigits = 0 →
    (∀ i : Instr, i.wf = true → i.isFeed = true → i ≠ .feedCr → i ≠ .feedLf →
      exec i s = .next { s with fault := some .counterUnderflow, result := Result.nothing }) ∧
    exec .feedCr s = .next { s with result := Result.returns .continue_ } ∧
    exec .feedLf s = .next { s with result := Result.returns .continue_ } ∧
    (∀ b : Byte, ∃ t, exec (.begin b) s = .next t ∧ t.phase = .awaitMark ∧ t.fault = none)

/-- R85, R103: a FEED of anything but CR or LF in a reserved phase faults IllegalPhase and writes nothing (a next
state with no status: log 4, log 8). -/
def Obligations.ReservedPhaseFaults : Prop :=
  ∀ (i : Instr) (s : State), i.wf = true → i.isFeed = true → i ≠ .feedCr → i ≠ .feedLf → s.fault = none →
    s.phase = .reserved6 ∨ s.phase = .reserved7 →
    exec i s = .next { s with fault := some .illegalPhase, result := Result.nothing }

/-! ## The digits of a record -/

/-- R142, R143: a digit of `LL`, before the last and the last one. -/
def Obligations.LengthDigits : Prop :=
  ∀ (i : Instr) (n : Nibble) (s : State), i.hexDigit = some n → s.fault = none → s.phase = .awaitLength →
    (s.remainingDigits ≠ 0 → s.remainingDigits ≠ 1 → exec i s = .next { s with
      length := insertDigit s.length n (s.remainingDigits.toNat - 1),
      remainingDigits := s.remainingDigits - 1, result := Result.returns .continue_ }) ∧
    (s.remainingDigits = 1 → exec i s = .next { s with
      length := insertDigit s.length n 0,
      runningChecksum := s.runningChecksum + insertDigit s.length n 0,
      phase := .awaitAddress, remainingDigits := 4, result := Result.returns .continue_ })

/-- R145, R146: a digit of `AAAA`, before the last and the last one. -/
def Obligations.AddressDigits : Prop :=
  ∀ (i : Instr) (n : Nibble) (s : State), i.hexDigit = some n → s.fault = none → s.phase = .awaitAddress →
    (s.remainingDigits ≠ 0 → s.remainingDigits ≠ 1 → exec i s = .next { s with
      loadOffset := insertDigit s.loadOffset n (s.remainingDigits.toNat - 1),
      remainingDigits := s.remainingDigits - 1, result := Result.returns .continue_ }) ∧
    (s.remainingDigits = 1 → exec i s = .next { s with
      loadOffset := insertDigit s.loadOffset n 0,
      runningChecksum := s.runningChecksum + (insertDigit s.loadOffset n 0).extractLsb' 8 8 +
        (insertDigit s.loadOffset n 0).extractLsb' 0 8,
      phase := .awaitType, remainingDigits := 2, result := Result.returns .continue_ })

/-- R148, R149, R150: a digit of `TT`. The last one sums the type, sets the extension tracker of types 02 and 04
whatever the length, and goes to the payload, or to the checksum when the length is 0. -/
def Obligations.TypeDigits : Prop :=
  ∀ (i : Instr) (n : Nibble) (s : State), i.hexDigit = some n → s.fault = none → s.phase = .awaitType →
    (s.remainingDigits ≠ 0 → s.remainingDigits ≠ 1 → exec i s = .next { s with
      recType := insertDigit s.recType n (s.remainingDigits.toNat - 1),
      remainingDigits := s.remainingDigits - 1, result := Result.returns .continue_ }) ∧
    (s.remainingDigits = 1 → ∀ tt : Byte, tt = insertDigit s.recType n 0 → exec i s = .next { s with
      recType := tt,
      runningChecksum := s.runningChecksum + tt,
      extensionBase := if tt = 0x02 ∨ tt = 0x04 then 0 else s.extensionBase,
      extensionBytePos := if tt = 0x02 then 1 else if tt = 0x04 then 3 else s.extensionBytePos,
      phase := if s.length = 0 then .awaitChecksum else .awaitPayload,
      remainingDigits := if s.length = 0 then 2 else BitVec.ofNat 9 (2 * s.length.toNat),
      result := Result.returns .continue_ })

/-- R129, R160: the first digit of a payload byte goes into slot 1 of `pendingByte` and does nothing else. -/
def Obligations.PayloadFirstDigit : Prop :=
  ∀ (i : Instr) (n : Nibble) (s : State), i.hexDigit = some n → s.fault = none → s.phase = .awaitPayload →
    s.remainingDigits ≠ 0 → s.remainingDigits.toNat % 2 = 0 →
    exec i s = .next { s with
      pendingByte := insertDigit s.pendingByte n 1,
      remainingDigits := s.remainingDigits - 1, result := Result.returns .continue_ }

/-- R161, R162, R163: the second digit of a payload byte of a type other than 00, 02 and 04: summed and discarded; the
last one goes to the checksum. -/
def Obligations.PayloadByteDiscarded : Prop :=
  ∀ (i : Instr) (n : Nibble) (s : State), i.hexDigit = some n → s.fault = none → s.phase = .awaitPayload →
    s.remainingDigits.toNat % 2 = 1 → s.recType ≠ 0x00 → s.recType ≠ 0x02 → s.recType ≠ 0x04 →
    exec i s = .next { s with
      pendingByte := insertDigit s.pendingByte n 0,
      runningChecksum := s.runningChecksum + insertDigit s.pendingByte n 0,
      phase := if s.remainingDigits = 1 then .awaitChecksum else .awaitPayload,
      remainingDigits := if s.remainingDigits = 1 then 2 else s.remainingDigits - 1,
      result := Result.returns .continue_ }

/-- R170, R171, R173: the second digit of a payload byte of an extension record. The byte is OR'd into its slot, the
slot counts down (0 becomes 7), and slot 0 of type 02 scales the base by 16; beyond the last slot the byte is only
summed. -/
def Obligations.PayloadByteExtends : Prop :=
  ∀ (i : Instr) (n : Nibble) (s : State), i.hexDigit = some n → s.fault = none → s.phase = .awaitPayload →
    s.remainingDigits.toNat % 2 = 1 → s.recType = 0x02 ∨ s.recType = 0x04 →
    ∀ placed : Addr, placed = s.extensionBase |||
        ((insertDigit s.pendingByte n 0).setWidth 32 <<< (8 * s.extensionBytePos.toNat)) →
    exec i s = .next { s with
      pendingByte := insertDigit s.pendingByte n 0,
      runningChecksum := s.runningChecksum + insertDigit s.pendingByte n 0,
      extensionBase := if s.extensionBytePos.toNat ≤ 3 then
          (if s.recType = 0x02 ∧ s.extensionBytePos = 0 then placed <<< 4 else placed)
        else s.extensionBase,
      extensionBytePos := if s.extensionBytePos.toNat ≤ 3 then s.extensionBytePos - 1 else s.extensionBytePos,
      phase := if s.remainingDigits = 1 then .awaitChecksum else .awaitPayload,
      remainingDigits := if s.remainingDigits = 1 then 2 else s.remainingDigits - 1,
      result := Result.returns .continue_ }

/-- R165: the second digit of a payload byte of a data record. With the sink bound and answering: one request, at base
+ offset + index modulo 2^32, the index goes up whatever the answer, and the FEED returns the answer; which answer
that is stays free (log 5). With the sink not bound: UnboundSink, no register written, no request issued, whatever the
sink would do (a next state with no status: log 4, log 8). -/
def Obligations.PayloadByteToSink : Prop :=
  ∀ (i : Instr) (n : Nibble) (s : State), i.hexDigit = some n → s.fault = none → s.phase = .awaitPayload →
    s.remainingDigits.toNat % 2 = 1 → s.recType = 0x00 →
    (s.cbBound = true → ∀ (st : Status) (rest : List SinkResponse) (addr : Addr) (data : Byte),
      addr.toNat = (s.extensionBase.toNat + s.loadOffset.toNat + s.recordByteIndex.toNat) % 2 ^ 32 →
      data = insertDigit s.pendingByte n 0 → sinkAnswer s addr data = some (st, rest) →
      exec i s = .next { s with
        pendingByte := data,
        runningChecksum := s.runningChecksum + data,
        recordByteIndex := s.recordByteIndex + 1,
        sinkLog := s.sinkLog ++ [⟨addr, data⟩],
        sinkScript := rest,
        phase := if s.remainingDigits = 1 then .awaitChecksum else .awaitPayload,
        remainingDigits := if s.remainingDigits = 1 then 2 else s.remainingDigits - 1,
        result := Result.returns st }) ∧
    (s.cbBound = false →
      exec i s = .next { s with fault := some .unboundSink, result := Result.nothing })

/-- R217: a command the sink issues while it answers a request is refused (what the sink does is the script of log 5;
that the refusal ends the step, log 6). -/
def Obligations.SinkReentryRefused : Prop :=
  ∀ (i : Instr) (s : State) (w : CmdWord) (rest : List SinkResponse), i.hexDigit.isSome = true → s.fault = none →
    s.phase = .awaitPayload → s.remainingDigits.toNat % 2 = 1 → s.recType = 0x00 → s.cbBound = true →
    s.sinkScript = .reenters w :: rest → exec i s = .refused (.sinkReentry w)

/-- R253: a request that the sink never answers leaves the step stuck (a fault outcome by the model's choice, log 7).
-/
def Obligations.SilentSinkSticks : Prop :=
  ∀ (i : Instr) (s : State) (rest : List SinkResponse), i.hexDigit.isSome = true → s.fault = none →
    s.phase = .awaitPayload → s.remainingDigits.toNat % 2 = 1 → s.recType = 0x00 → s.cbBound = true →
    s.sinkScript = .silent :: rest → exec i s = .fault .sinkNeverAnswers

/-- R192, R193, R194: a digit of `CC`. The last one goes back to AwaitMark and returns End for type 01 whatever the
checksum, else ChecksumError or Continue. -/
def Obligations.ChecksumDigits : Prop :=
  ∀ (i : Instr) (n : Nibble) (s : State), i.hexDigit = some n → s.fault = none → s.phase = .awaitChecksum →
    (s.remainingDigits ≠ 0 → s.remainingDigits ≠ 1 → exec i s = .next { s with
      targetChecksum := insertDigit s.targetChecksum n (s.remainingDigits.toNat - 1),
      remainingDigits := s.remainingDigits - 1, result := Result.returns .continue_ }) ∧
    (s.remainingDigits = 1 → exec i s = .next { s with
      targetChecksum := insertDigit s.targetChecksum n 0,
      remainingDigits := 0,
      phase := .awaitMark,
      result := Result.returns
        (if s.recType = 0x01 then .end_
          else if ~~~s.runningChecksum + 1 = insertDigit s.targetChecksum n 0 then .continue_
          else .checksumError) })

/-! ## Properties of every command -/

/-- R76: two hex characters of the same value do the same in every state, upper case or lower. -/
def Obligations.HexDigitsCaseInsensitive : Prop :=
  ∀ (i j : Instr) (s : State), i.hexDigit.isSome = true → i.hexDigit = j.hexDigit → exec i s = exec j s

/-- R111: a status never changes the next step. -/
def Obligations.ResultNeverReadBack : Prop :=
  ∀ (i : Instr) (s : State) (r : Result), exec i { s with result := r } = exec i s

/-- R167 (the sink's answers are the script of log 5): what the sink answers changes nothing but the status the FEED
returns: with another answer the command has a next state too, and the two agree in everything but the result and the
script that remains. -/
def Obligations.SinkStatusNeverSteers : Prop :=
  ∀ (i : Instr) (s t : State) (st st' : Status) (rest : List SinkResponse),
    exec i { s with sinkScript := .answers st :: rest } = .next t →
    ∃ t', exec i { s with sinkScript := .answers st' :: rest } = .next t' ∧
      { t' with result := t.result, sinkScript := t.sinkScript } = t ∧
      (t.sinkLog ≠ s.sinkLog → t.sinkScript = rest ∧ t'.sinkScript = rest) ∧
      (t.sinkLog = s.sinkLog → t'.result = t.result)

/-- R84, R108: a FEED that ends without a fault returns exactly one status, and NOP, INIT and BEGIN return none. -/
def Obligations.OneStatusPerFeed : Prop :=
  ∀ (i : Instr) (s t : State), exec i s = .next t → t.fault = none →
    (i.isFeed = true → t.result.status.isSome = true) ∧ (i.isFeed = false → t.result = Result.nothing)

/-- R84: `recStart` is 1 exactly for a `:` accepted in AwaitMark. -/
def Obligations.RecordStartExactly : Prop :=
  ∀ (i : Instr) (s t : State), i.wf = true → exec i s = .next t →
    (t.result.recStart = true ↔ i = .feedMark ∧ s.phase = .awaitMark)

/-- R211: the causes of the block's own statuses, for a command that sends no request to the sink. -/
def Obligations.StatusCauses : Prop :=
  ∀ (i : Instr) (s t : State), i.wf = true → exec i s = .next t → t.fault = none → t.sinkLog = s.sinkLog →
    (t.result.status = some .invalidInput ↔
      (i = .feedMark ∨ ∃ b, i = .feedOther b) ∧ s.phase.isDigit = true) ∧
    (t.result.status = some .end_ ↔
      i.hexDigit.isSome = true ∧ s.phase = .awaitChecksum ∧ s.remainingDigits = 1 ∧ s.recType = 0x01) ∧
    (t.result.status = some .checksumError ↔
      i.hexDigit.isSome = true ∧ s.phase = .awaitChecksum ∧ s.remainingDigits = 1 ∧ s.recType ≠ 0x01 ∧
        finalize t.runningChecksum ≠ t.targetChecksum) ∧
    (i.isFeed = true → t.result.status = some .invalidInput ∨ t.result.status = some .end_ ∨
      t.result.status = some .checksumError ∨ t.result.status = some .continue_)

/-- R216: a step that faults writes no register and issues no request, and its reason is that of the table (the fault
is a next state with no status: log 4, log 8). -/
def Obligations.FaultsExactly : Prop :=
  ∀ (i : Instr) (s t : State), i.wf = true → exec i s = .next t →
    (∀ r, t.fault = some r → t = { s with fault := some r, result := Result.nothing }) ∧
    (t.fault = some .unboundSink ↔ completesByte i s = true ∧ s.recType = 0x00 ∧ s.cbBound = false) ∧
    (t.fault = some .counterUnderflow ↔
      i.isFeed = true ∧ i.isLineEnd = false ∧ s.phase.isDigit = true ∧ s.remainingDigits = 0) ∧
    (t.fault = some .illegalPhase ↔
      i.isFeed = true ∧ i.isLineEnd = false ∧ (s.phase = .reserved6 ∨ s.phase = .reserved7))

/-- R58 (the list of requests is the model's own record of the port, log 14): the requests of a command are exactly
the one of a completed byte of a data record, at the address the meaning computes, and none otherwise. -/
def Obligations.RequestsExactly : Prop :=
  ∀ (i : Instr) (s t : State), i.wf = true → exec i s = .next t → t.sinkLog = s.sinkLog ++ (requestOf i s).toList

/-- The frame of the sink's address space (R50, R58; the reading `sentByte` is the model's own, log 14): the byte last
sent to an address changes only at the address of the command's request. -/
def Obligations.SentBytesFrame : Prop :=
  ∀ (i : Instr) (s t : State), i.wf = true → exec i s = .next t →
    (∀ q, requestOf i s = some q →
      sentByte t.sinkLog q.addr = some q.data ∧
      ∀ a : Addr, a ≠ q.addr → sentByte t.sinkLog a = sentByte s.sinkLog a) ∧
    (requestOf i s = none → ∀ a : Addr, sentByte t.sinkLog a = sentByte s.sinkLog a)

/-- R176: only BEGIN and extension records write the extension base, and BEGIN clears it. -/
def Obligations.ExtensionBaseWriters : Prop :=
  ∀ (i : Instr) (s t : State), i.wf = true → exec i s = .next t →
    (t.extensionBase = s.extensionBase ∨
      (∃ b, i = .begin b ∧ t.extensionBase = 0) ∨
      (i.hexDigit.isSome = true ∧ s.phase = .awaitType ∧ (t.recType = 0x02 ∨ t.recType = 0x04) ∧
        t.extensionBase = 0) ∨
      (completesByte i s = true ∧ (s.recType = 0x02 ∨ s.recType = 0x04)))

/-- R29: INIT binds the sink, and no command unbinds it. -/
def Obligations.SinkBindingWriters : Prop :=
  ∀ (i : Instr) (s t : State), exec i s = .next t →
    (t.cbBound = true ↔ s.cbBound = true ∨ ∃ b, i = .init b)

/-- R32: no step, the reset input included, changes the build parameters. -/
def Obligations.ParametersNeverWritten : Prop :=
  ∀ s t : State, step s = .next t → t.params = s.params

/-- R22, R85, R248: the phases follow their fixed cycle: a command keeps the phase, goes to the next one on a hex
digit or the mark, or is BEGIN. -/
def Obligations.PhaseCycle : Prop :=
  ∀ (i : Instr) (s t : State), i.wf = true → exec i s = .next t →
    t.phase = s.phase ∨
    ((∃ b, i = .begin b) ∧ t.phase = .awaitMark) ∨
    (i = .feedMark ∧ s.phase = .awaitMark ∧ t.phase = .awaitLength) ∨
    (i.hexDigit.isSome = true ∧ s.remainingDigits = 1 ∧
      ((s.phase = .awaitLength ∧ t.phase = .awaitAddress) ∨ (s.phase = .awaitAddress ∧ t.phase = .awaitType) ∨
        (s.phase = .awaitType ∧ s.length ≠ 0 ∧ t.phase = .awaitPayload) ∨
        (s.phase = .awaitType ∧ s.length = 0 ∧ t.phase = .awaitChecksum) ∨
        (s.phase = .awaitPayload ∧ t.phase = .awaitChecksum) ∨
        (s.phase = .awaitChecksum ∧ t.phase = .awaitMark)))

/-! ## Invariants -/

/-- R34, R35: the legal phases, the legal slots of the extension tracker and the counter bounds are kept by every
step, under either slot policy. -/
def Obligations.StepKeepsLegalState : Prop :=
  ∀ s t : State, LegalState s → step s = .next t → LegalState t

/-- R34: under `Retain` every step keeps the invariant. -/
def Obligations.StepKeepsRetainInv : Prop :=
  ∀ s t : State, s.params.slotPolicy = .retain → RetainInv s → step s = .next t → RetainInv t

/-- R34: the state after power-on reset meets the invariant. -/
def Obligations.ResetMeetsRetainInv : Prop :=
  RetainInv State.reset ∧ ∀ s : State, RetainInv (powerOnReset s)

/-- R216, R244: once the sink is bound, under `Retain`, with a sink that keeps its port's rules and no reset, every
step has a next state, and no fault is ever reached. -/
def Obligations.BootedRunNeverFaults : Prop :=
  ∀ s : State, RetainInv s → Booted s → ∃ t, step s = .next t ∧ RetainInv t ∧ Booted t

/-! ## Streams -/

/-- R128: under `Retain`, an invalid character in a digit phase writes no register and can be deleted from a stream:
what follows it gives the same outcome. -/
def Obligations.InvalidCharactersDeletable : Prop :=
  ∀ (before after : List Instr) (bad next : Instr) (s t : State), bad.wf = true →
    bad = .feedMark ∨ (∃ b, bad = .feedOther b) →
    runAll before s = .next t → t.fault = none → t.params.slotPolicy = .retain → t.phase.isDigit = true →
    t.remainingDigits ≠ 0 →
    runAll (before ++ [bad]) s = .next { t with result := Result.returns .invalidInput } ∧
    runAll (before ++ bad :: next :: after) s = runAll (before ++ next :: after) s

/-- R198, R251: a CR or LF can be deleted from any stream, at any place, under either policy: what follows it gives
the same outcome. -/
def Obligations.LineEndsDeletable : Prop :=
  ∀ (before after : List Instr) (i next : Instr) (s : State), i = .feedCr ∨ i = .feedLf →
    runAll (before ++ i :: next :: after) s = runAll (before ++ next :: after) s

/-- R169, R193, R196: a data record fed in full from AwaitMark, to a bound sink that answers each of its bytes with
any status: exactly one request per byte goes to the sink, in order, at `extensionBase + loadOffset + i`; the block is
back in AwaitMark; the last character returns Continue or ChecksumError, as the sum of all its bytes is 0 modulo 256
or not. If the sink answers Continue to every byte, every character before the last returns Continue. -/
def Obligations.DataRecordDelivered : Prop :=
  ∀ (s : State) (aaaa : BitVec 16) (dd : List Byte) (cc : Byte) (sts : List Status) (rest : List SinkResponse)
    (text : List Byte), text = recordText aaaa 0x00 dd cc →
    s.fault = none → s.phase = .awaitMark → s.cbBound = true → dd.length < 256 → sts.length = dd.length →
    s.sinkScript = sts.map .answers ++ rest →
    (∃ t, Sys2Proof.core.run text.length (s.fed text) = .next t ∧
      t.phase = .awaitMark ∧ t.fault = none ∧ t.inputs = [] ∧ t.sinkScript = rest ∧
      t.extensionBase = s.extensionBase ∧
      t.sinkLog = s.sinkLog ++ dataRequests (s.extensionBase + aaaa.setWidth 32) 0 dd ∧
      t.result = Result.returns (if recordSum aaaa 0x00 dd + cc = 0 then .continue_ else .checksumError)) ∧
    ((∀ st ∈ sts, st = .continue_) → ∀ k, 1 ≤ k → k < text.length →
      ∃ t, Sys2Proof.core.run k (s.fed text) = .next t ∧ t.result.status = some .continue_)

/-- R150, R170, R171: an extension record of two bytes fed in full from AwaitMark, with any checksum: type 04 sets the
upper half of the base, type 02 sets 16 times the segment number, and no request is sent. -/
def Obligations.ExtensionRecordSetsBase : Prop :=
  ∀ (s : State) (aaaa : BitVec 16) (b1 b0 cc tt : Byte), s.fault = none → s.phase = .awaitMark →
    tt = 0x02 ∨ tt = 0x04 →
    ∃ t, Sys2Proof.core.run (recordText aaaa tt [b1, b0] cc).length (s.fed (recordText aaaa tt [b1, b0] cc)) = .next t ∧
      t.phase = .awaitMark ∧ t.fault = none ∧ t.sinkLog = s.sinkLog ∧
      t.extensionBase.toNat =
        (if tt = 0x04 then (b1.toNat * 256 + b0.toNat) * 65536 else (b1.toNat * 256 + b0.toNat) * 16)
end

