-- ==== Sys2Proof/Laws/State.lean ====
section
/-! SUPPORT. One lemma per field per update of State, true by `rfl`, so that no later proof unfolds an update. -/

namespace Sys2Proof.Machine

@[simp] theorem respond_phase (s : State) (st : Status) : (s.respond st).phase = s.phase := rfl
@[simp] theorem respond_remainingDigits (s : State) (st : Status) : (s.respond st).remainingDigits = s.remainingDigits := rfl
@[simp] theorem respond_mark (s : State) (st : Status) : (s.respond st).mark = s.mark := rfl
@[simp] theorem respond_length (s : State) (st : Status) : (s.respond st).length = s.length := rfl
@[simp] theorem respond_loadOffset (s : State) (st : Status) : (s.respond st).loadOffset = s.loadOffset := rfl
@[simp] theorem respond_recType (s : State) (st : Status) : (s.respond st).recType = s.recType := rfl
@[simp] theorem respond_pendingByte (s : State) (st : Status) : (s.respond st).pendingByte = s.pendingByte := rfl
@[simp] theorem respond_targetChecksum (s : State) (st : Status) : (s.respond st).targetChecksum = s.targetChecksum := rfl
@[simp] theorem respond_extensionBase (s : State) (st : Status) : (s.respond st).extensionBase = s.extensionBase := rfl
@[simp] theorem respond_extensionBytePos (s : State) (st : Status) : (s.respond st).extensionBytePos = s.extensionBytePos := rfl
@[simp] theorem respond_recordByteIndex (s : State) (st : Status) : (s.respond st).recordByteIndex = s.recordByteIndex := rfl
@[simp] theorem respond_runningChecksum (s : State) (st : Status) : (s.respond st).runningChecksum = s.runningChecksum := rfl
@[simp] theorem respond_cbBound (s : State) (st : Status) : (s.respond st).cbBound = s.cbBound := rfl
@[simp] theorem respond_fault (s : State) (st : Status) : (s.respond st).fault = s.fault := rfl
@[simp] theorem respond_result (s : State) (st : Status) : (s.respond st).result = Result.returns st := rfl
@[simp] theorem respond_sinkLog (s : State) (st : Status) : (s.respond st).sinkLog = s.sinkLog := rfl
@[simp] theorem respond_params (s : State) (st : Status) : (s.respond st).params = s.params := rfl
@[simp] theorem respond_sinkScript (s : State) (st : Status) : (s.respond st).sinkScript = s.sinkScript := rfl
@[simp] theorem respond_inputs (s : State) (st : Status) : (s.respond st).inputs = s.inputs := rfl

@[simp] theorem respondRecordStart_phase (s : State) : s.respondRecordStart.phase = s.phase := rfl
@[simp] theorem respondRecordStart_remainingDigits (s : State) : s.respondRecordStart.remainingDigits = s.remainingDigits := rfl
@[simp] theorem respondRecordStart_mark (s : State) : s.respondRecordStart.mark = s.mark := rfl
@[simp] theorem respondRecordStart_length (s : State) : s.respondRecordStart.length = s.length := rfl
@[simp] theorem respondRecordStart_loadOffset (s : State) : s.respondRecordStart.loadOffset = s.loadOffset := rfl
@[simp] theorem respondRecordStart_recType (s : State) : s.respondRecordStart.recType = s.recType := rfl
@[simp] theorem respondRecordStart_pendingByte (s : State) : s.respondRecordStart.pendingByte = s.pendingByte := rfl
@[simp] theorem respondRecordStart_targetChecksum (s : State) : s.respondRecordStart.targetChecksum = s.targetChecksum := rfl
@[simp] theorem respondRecordStart_extensionBase (s : State) : s.respondRecordStart.extensionBase = s.extensionBase := rfl
@[simp] theorem respondRecordStart_extensionBytePos (s : State) : s.respondRecordStart.extensionBytePos = s.extensionBytePos := rfl
@[simp] theorem respondRecordStart_recordByteIndex (s : State) : s.respondRecordStart.recordByteIndex = s.recordByteIndex := rfl
@[simp] theorem respondRecordStart_runningChecksum (s : State) : s.respondRecordStart.runningChecksum = s.runningChecksum := rfl
@[simp] theorem respondRecordStart_cbBound (s : State) : s.respondRecordStart.cbBound = s.cbBound := rfl
@[simp] theorem respondRecordStart_fault (s : State) : s.respondRecordStart.fault = s.fault := rfl
@[simp] theorem respondRecordStart_result (s : State) : s.respondRecordStart.result = { status := some .continue_, recStart := true } := rfl
@[simp] theorem respondRecordStart_sinkLog (s : State) : s.respondRecordStart.sinkLog = s.sinkLog := rfl
@[simp] theorem respondRecordStart_params (s : State) : s.respondRecordStart.params = s.params := rfl
@[simp] theorem respondRecordStart_sinkScript (s : State) : s.respondRecordStart.sinkScript = s.sinkScript := rfl
@[simp] theorem respondRecordStart_inputs (s : State) : s.respondRecordStart.inputs = s.inputs := rfl

@[simp] theorem respondNothing_phase (s : State) : s.respondNothing.phase = s.phase := rfl
@[simp] theorem respondNothing_remainingDigits (s : State) : s.respondNothing.remainingDigits = s.remainingDigits := rfl
@[simp] theorem respondNothing_mark (s : State) : s.respondNothing.mark = s.mark := rfl
@[simp] theorem respondNothing_length (s : State) : s.respondNothing.length = s.length := rfl
@[simp] theorem respondNothing_loadOffset (s : State) : s.respondNothing.loadOffset = s.loadOffset := rfl
@[simp] theorem respondNothing_recType (s : State) : s.respondNothing.recType = s.recType := rfl
@[simp] theorem respondNothing_pendingByte (s : State) : s.respondNothing.pendingByte = s.pendingByte := rfl
@[simp] theorem respondNothing_targetChecksum (s : State) : s.respondNothing.targetChecksum = s.targetChecksum := rfl
@[simp] theorem respondNothing_extensionBase (s : State) : s.respondNothing.extensionBase = s.extensionBase := rfl
@[simp] theorem respondNothing_extensionBytePos (s : State) : s.respondNothing.extensionBytePos = s.extensionBytePos := rfl
@[simp] theorem respondNothing_recordByteIndex (s : State) : s.respondNothing.recordByteIndex = s.recordByteIndex := rfl
@[simp] theorem respondNothing_runningChecksum (s : State) : s.respondNothing.runningChecksum = s.runningChecksum := rfl
@[simp] theorem respondNothing_cbBound (s : State) : s.respondNothing.cbBound = s.cbBound := rfl
@[simp] theorem respondNothing_fault (s : State) : s.respondNothing.fault = s.fault := rfl
@[simp] theorem respondNothing_result (s : State) : s.respondNothing.result = Result.nothing := rfl
@[simp] theorem respondNothing_sinkLog (s : State) : s.respondNothing.sinkLog = s.sinkLog := rfl
@[simp] theorem respondNothing_params (s : State) : s.respondNothing.params = s.params := rfl
@[simp] theorem respondNothing_sinkScript (s : State) : s.respondNothing.sinkScript = s.sinkScript := rfl
@[simp] theorem respondNothing_inputs (s : State) : s.respondNothing.inputs = s.inputs := rfl

@[simp] theorem takeDigit_phase (s : State) : s.takeDigit.phase = s.phase := rfl
@[simp] theorem takeDigit_remainingDigits (s : State) : s.takeDigit.remainingDigits = s.remainingDigits - 1 := rfl
@[simp] theorem takeDigit_mark (s : State) : s.takeDigit.mark = s.mark := rfl
@[simp] theorem takeDigit_length (s : State) : s.takeDigit.length = s.length := rfl
@[simp] theorem takeDigit_loadOffset (s : State) : s.takeDigit.loadOffset = s.loadOffset := rfl
@[simp] theorem takeDigit_recType (s : State) : s.takeDigit.recType = s.recType := rfl
@[simp] theorem takeDigit_pendingByte (s : State) : s.takeDigit.pendingByte = s.pendingByte := rfl
@[simp] theorem takeDigit_targetChecksum (s : State) : s.takeDigit.targetChecksum = s.targetChecksum := rfl
@[simp] theorem takeDigit_extensionBase (s : State) : s.takeDigit.extensionBase = s.extensionBase := rfl
@[simp] theorem takeDigit_extensionBytePos (s : State) : s.takeDigit.extensionBytePos = s.extensionBytePos := rfl
@[simp] theorem takeDigit_recordByteIndex (s : State) : s.takeDigit.recordByteIndex = s.recordByteIndex := rfl
@[simp] theorem takeDigit_runningChecksum (s : State) : s.takeDigit.runningChecksum = s.runningChecksum := rfl
@[simp] theorem takeDigit_cbBound (s : State) : s.takeDigit.cbBound = s.cbBound := rfl
@[simp] theorem takeDigit_fault (s : State) : s.takeDigit.fault = s.fault := rfl
@[simp] theorem takeDigit_result (s : State) : s.takeDigit.result = s.result := rfl
@[simp] theorem takeDigit_sinkLog (s : State) : s.takeDigit.sinkLog = s.sinkLog := rfl
@[simp] theorem takeDigit_params (s : State) : s.takeDigit.params = s.params := rfl
@[simp] theorem takeDigit_sinkScript (s : State) : s.takeDigit.sinkScript = s.sinkScript := rfl
@[simp] theorem takeDigit_inputs (s : State) : s.takeDigit.inputs = s.inputs := rfl

@[simp] theorem accumulate_phase (s : State) (v : Byte) : (s.accumulate v).phase = s.phase := rfl
@[simp] theorem accumulate_remainingDigits (s : State) (v : Byte) : (s.accumulate v).remainingDigits = s.remainingDigits := rfl
@[simp] theorem accumulate_mark (s : State) (v : Byte) : (s.accumulate v).mark = s.mark := rfl
@[simp] theorem accumulate_length (s : State) (v : Byte) : (s.accumulate v).length = s.length := rfl
@[simp] theorem accumulate_loadOffset (s : State) (v : Byte) : (s.accumulate v).loadOffset = s.loadOffset := rfl
@[simp] theorem accumulate_recType (s : State) (v : Byte) : (s.accumulate v).recType = s.recType := rfl
@[simp] theorem accumulate_pendingByte (s : State) (v : Byte) : (s.accumulate v).pendingByte = s.pendingByte := rfl
@[simp] theorem accumulate_targetChecksum (s : State) (v : Byte) : (s.accumulate v).targetChecksum = s.targetChecksum := rfl
@[simp] theorem accumulate_extensionBase (s : State) (v : Byte) : (s.accumulate v).extensionBase = s.extensionBase := rfl
@[simp] theorem accumulate_extensionBytePos (s : State) (v : Byte) : (s.accumulate v).extensionBytePos = s.extensionBytePos := rfl
@[simp] theorem accumulate_recordByteIndex (s : State) (v : Byte) : (s.accumulate v).recordByteIndex = s.recordByteIndex := rfl
@[simp] theorem accumulate_runningChecksum (s : State) (v : Byte) : (s.accumulate v).runningChecksum = addToSum s.runningChecksum v := rfl
@[simp] theorem accumulate_cbBound (s : State) (v : Byte) : (s.accumulate v).cbBound = s.cbBound := rfl
@[simp] theorem accumulate_fault (s : State) (v : Byte) : (s.accumulate v).fault = s.fault := rfl
@[simp] theorem accumulate_result (s : State) (v : Byte) : (s.accumulate v).result = s.result := rfl
@[simp] theorem accumulate_sinkLog (s : State) (v : Byte) : (s.accumulate v).sinkLog = s.sinkLog := rfl
@[simp] theorem accumulate_params (s : State) (v : Byte) : (s.accumulate v).params = s.params := rfl
@[simp] theorem accumulate_sinkScript (s : State) (v : Byte) : (s.accumulate v).sinkScript = s.sinkScript := rfl
@[simp] theorem accumulate_inputs (s : State) (v : Byte) : (s.accumulate v).inputs = s.inputs := rfl

@[simp] theorem enter_phase (s : State) (p : Phase) (d : BitVec 9) : (s.enter p d).phase = p := rfl
@[simp] theorem enter_remainingDigits (s : State) (p : Phase) (d : BitVec 9) : (s.enter p d).remainingDigits = d := rfl
@[simp] theorem enter_mark (s : State) (p : Phase) (d : BitVec 9) : (s.enter p d).mark = s.mark := rfl
@[simp] theorem enter_length (s : State) (p : Phase) (d : BitVec 9) : (s.enter p d).length = s.length := rfl
@[simp] theorem enter_loadOffset (s : State) (p : Phase) (d : BitVec 9) : (s.enter p d).loadOffset = s.loadOffset := rfl
@[simp] theorem enter_recType (s : State) (p : Phase) (d : BitVec 9) : (s.enter p d).recType = s.recType := rfl
@[simp] theorem enter_pendingByte (s : State) (p : Phase) (d : BitVec 9) : (s.enter p d).pendingByte = s.pendingByte := rfl
@[simp] theorem enter_targetChecksum (s : State) (p : Phase) (d : BitVec 9) : (s.enter p d).targetChecksum = s.targetChecksum := rfl
@[simp] theorem enter_extensionBase (s : State) (p : Phase) (d : BitVec 9) : (s.enter p d).extensionBase = s.extensionBase := rfl
@[simp] theorem enter_extensionBytePos (s : State) (p : Phase) (d : BitVec 9) : (s.enter p d).extensionBytePos = s.extensionBytePos := rfl
@[simp] theorem enter_recordByteIndex (s : State) (p : Phase) (d : BitVec 9) : (s.enter p d).recordByteIndex = s.recordByteIndex := rfl
@[simp] theorem enter_runningChecksum (s : State) (p : Phase) (d : BitVec 9) : (s.enter p d).runningChecksum = s.runningChecksum := rfl
@[simp] theorem enter_cbBound (s : State) (p : Phase) (d : BitVec 9) : (s.enter p d).cbBound = s.cbBound := rfl
@[simp] theorem enter_fault (s : State) (p : Phase) (d : BitVec 9) : (s.enter p d).fault = s.fault := rfl
@[simp] theorem enter_result (s : State) (p : Phase) (d : BitVec 9) : (s.enter p d).result = s.result := rfl
@[simp] theorem enter_sinkLog (s : State) (p : Phase) (d : BitVec 9) : (s.enter p d).sinkLog = s.sinkLog := rfl
@[simp] theorem enter_params (s : State) (p : Phase) (d : BitVec 9) : (s.enter p d).params = s.params := rfl
@[simp] theorem enter_sinkScript (s : State) (p : Phase) (d : BitVec 9) : (s.enter p d).sinkScript = s.sinkScript := rfl
@[simp] theorem enter_inputs (s : State) (p : Phase) (d : BitVec 9) : (s.enter p d).inputs = s.inputs := rfl

@[simp] theorem sendRequest_phase (s : State) (r : SinkRequest) : (s.sendRequest r).phase = s.phase := rfl
@[simp] theorem sendRequest_remainingDigits (s : State) (r : SinkRequest) : (s.sendRequest r).remainingDigits = s.remainingDigits := rfl
@[simp] theorem sendRequest_mark (s : State) (r : SinkRequest) : (s.sendRequest r).mark = s.mark := rfl
@[simp] theorem sendRequest_length (s : State) (r : SinkRequest) : (s.sendRequest r).length = s.length := rfl
@[simp] theorem sendRequest_loadOffset (s : State) (r : SinkRequest) : (s.sendRequest r).loadOffset = s.loadOffset := rfl
@[simp] theorem sendRequest_recType (s : State) (r : SinkRequest) : (s.sendRequest r).recType = s.recType := rfl
@[simp] theorem sendRequest_pendingByte (s : State) (r : SinkRequest) : (s.sendRequest r).pendingByte = s.pendingByte := rfl
@[simp] theorem sendRequest_targetChecksum (s : State) (r : SinkRequest) : (s.sendRequest r).targetChecksum = s.targetChecksum := rfl
@[simp] theorem sendRequest_extensionBase (s : State) (r : SinkRequest) : (s.sendRequest r).extensionBase = s.extensionBase := rfl
@[simp] theorem sendRequest_extensionBytePos (s : State) (r : SinkRequest) : (s.sendRequest r).extensionBytePos = s.extensionBytePos := rfl
@[simp] theorem sendRequest_recordByteIndex (s : State) (r : SinkRequest) : (s.sendRequest r).recordByteIndex = s.recordByteIndex := rfl
@[simp] theorem sendRequest_runningChecksum (s : State) (r : SinkRequest) : (s.sendRequest r).runningChecksum = s.runningChecksum := rfl
@[simp] theorem sendRequest_cbBound (s : State) (r : SinkRequest) : (s.sendRequest r).cbBound = s.cbBound := rfl
@[simp] theorem sendRequest_fault (s : State) (r : SinkRequest) : (s.sendRequest r).fault = s.fault := rfl
@[simp] theorem sendRequest_result (s : State) (r : SinkRequest) : (s.sendRequest r).result = s.result := rfl
@[simp] theorem sendRequest_sinkLog (s : State) (r : SinkRequest) : (s.sendRequest r).sinkLog = s.sinkLog ++ [r] := rfl
@[simp] theorem sendRequest_params (s : State) (r : SinkRequest) : (s.sendRequest r).params = s.params := rfl
@[simp] theorem sendRequest_sinkScript (s : State) (r : SinkRequest) : (s.sendRequest r).sinkScript = s.sinkScript := rfl
@[simp] theorem sendRequest_inputs (s : State) (r : SinkRequest) : (s.sendRequest r).inputs = s.inputs := rfl

@[simp] theorem takeFault_phase (r : FaultReason) (s : State) : (takeFault r s).phase = s.phase := rfl
@[simp] theorem takeFault_remainingDigits (r : FaultReason) (s : State) : (takeFault r s).remainingDigits = s.remainingDigits := rfl
@[simp] theorem takeFault_mark (r : FaultReason) (s : State) : (takeFault r s).mark = s.mark := rfl
@[simp] theorem takeFault_length (r : FaultReason) (s : State) : (takeFault r s).length = s.length := rfl
@[simp] theorem takeFault_loadOffset (r : FaultReason) (s : State) : (takeFault r s).loadOffset = s.loadOffset := rfl
@[simp] theorem takeFault_recType (r : FaultReason) (s : State) : (takeFault r s).recType = s.recType := rfl
@[simp] theorem takeFault_pendingByte (r : FaultReason) (s : State) : (takeFault r s).pendingByte = s.pendingByte := rfl
@[simp] theorem takeFault_targetChecksum (r : FaultReason) (s : State) : (takeFault r s).targetChecksum = s.targetChecksum := rfl
@[simp] theorem takeFault_extensionBase (r : FaultReason) (s : State) : (takeFault r s).extensionBase = s.extensionBase := rfl
@[simp] theorem takeFault_extensionBytePos (r : FaultReason) (s : State) : (takeFault r s).extensionBytePos = s.extensionBytePos := rfl
@[simp] theorem takeFault_recordByteIndex (r : FaultReason) (s : State) : (takeFault r s).recordByteIndex = s.recordByteIndex := rfl
@[simp] theorem takeFault_runningChecksum (r : FaultReason) (s : State) : (takeFault r s).runningChecksum = s.runningChecksum := rfl
@[simp] theorem takeFault_cbBound (r : FaultReason) (s : State) : (takeFault r s).cbBound = s.cbBound := rfl
@[simp] theorem takeFault_fault (r : FaultReason) (s : State) : (takeFault r s).fault = some r := rfl
@[simp] theorem takeFault_result (r : FaultReason) (s : State) : (takeFault r s).result = Result.nothing := rfl
@[simp] theorem takeFault_sinkLog (r : FaultReason) (s : State) : (takeFault r s).sinkLog = s.sinkLog := rfl
@[simp] theorem takeFault_params (r : FaultReason) (s : State) : (takeFault r s).params = s.params := rfl
@[simp] theorem takeFault_sinkScript (r : FaultReason) (s : State) : (takeFault r s).sinkScript = s.sinkScript := rfl
@[simp] theorem takeFault_inputs (r : FaultReason) (s : State) : (takeFault r s).inputs = s.inputs := rfl

@[simp] theorem bindSink_phase (s : State) : (bindSink s).phase = s.phase := rfl
@[simp] theorem bindSink_remainingDigits (s : State) : (bindSink s).remainingDigits = s.remainingDigits := rfl
@[simp] theorem bindSink_mark (s : State) : (bindSink s).mark = s.mark := rfl
@[simp] theorem bindSink_length (s : State) : (bindSink s).length = s.length := rfl
@[simp] theorem bindSink_loadOffset (s : State) : (bindSink s).loadOffset = s.loadOffset := rfl
@[simp] theorem bindSink_recType (s : State) : (bindSink s).recType = s.recType := rfl
@[simp] theorem bindSink_pendingByte (s : State) : (bindSink s).pendingByte = s.pendingByte := rfl
@[simp] theorem bindSink_targetChecksum (s : State) : (bindSink s).targetChecksum = s.targetChecksum := rfl
@[simp] theorem bindSink_extensionBase (s : State) : (bindSink s).extensionBase = s.extensionBase := rfl
@[simp] theorem bindSink_extensionBytePos (s : State) : (bindSink s).extensionBytePos = s.extensionBytePos := rfl
@[simp] theorem bindSink_recordByteIndex (s : State) : (bindSink s).recordByteIndex = s.recordByteIndex := rfl
@[simp] theorem bindSink_runningChecksum (s : State) : (bindSink s).runningChecksum = s.runningChecksum := rfl
@[simp] theorem bindSink_cbBound (s : State) : (bindSink s).cbBound = true := rfl
@[simp] theorem bindSink_fault (s : State) : (bindSink s).fault = s.fault := rfl
@[simp] theorem bindSink_result (s : State) : (bindSink s).result = s.result := rfl
@[simp] theorem bindSink_sinkLog (s : State) : (bindSink s).sinkLog = s.sinkLog := rfl
@[simp] theorem bindSink_params (s : State) : (bindSink s).params = s.params := rfl
@[simp] theorem bindSink_sinkScript (s : State) : (bindSink s).sinkScript = s.sinkScript := rfl
@[simp] theorem bindSink_inputs (s : State) : (bindSink s).inputs = s.inputs := rfl

@[simp] theorem beginStream_phase (s : State) : (beginStream s).phase = .awaitMark := rfl
@[simp] theorem beginStream_remainingDigits (s : State) : (beginStream s).remainingDigits = s.remainingDigits := rfl
@[simp] theorem beginStream_mark (s : State) : (beginStream s).mark = s.mark := rfl
@[simp] theorem beginStream_length (s : State) : (beginStream s).length = s.length := rfl
@[simp] theorem beginStream_loadOffset (s : State) : (beginStream s).loadOffset = s.loadOffset := rfl
@[simp] theorem beginStream_recType (s : State) : (beginStream s).recType = s.recType := rfl
@[simp] theorem beginStream_pendingByte (s : State) : (beginStream s).pendingByte = s.pendingByte := rfl
@[simp] theorem beginStream_targetChecksum (s : State) : (beginStream s).targetChecksum = s.targetChecksum := rfl
@[simp] theorem beginStream_extensionBase (s : State) : (beginStream s).extensionBase = 0 := rfl
@[simp] theorem beginStream_extensionBytePos (s : State) : (beginStream s).extensionBytePos = s.extensionBytePos := rfl
@[simp] theorem beginStream_recordByteIndex (s : State) : (beginStream s).recordByteIndex = s.recordByteIndex := rfl
@[simp] theorem beginStream_runningChecksum (s : State) : (beginStream s).runningChecksum = s.runningChecksum := rfl
@[simp] theorem beginStream_cbBound (s : State) : (beginStream s).cbBound = s.cbBound := rfl
@[simp] theorem beginStream_fault (s : State) : (beginStream s).fault = s.fault := rfl
@[simp] theorem beginStream_result (s : State) : (beginStream s).result = s.result := rfl
@[simp] theorem beginStream_sinkLog (s : State) : (beginStream s).sinkLog = s.sinkLog := rfl
@[simp] theorem beginStream_params (s : State) : (beginStream s).params = s.params := rfl
@[simp] theorem beginStream_sinkScript (s : State) : (beginStream s).sinkScript = s.sinkScript := rfl
@[simp] theorem beginStream_inputs (s : State) : (beginStream s).inputs = s.inputs := rfl

@[simp] theorem startRecord_phase (s : State) : (startRecord s).phase = .awaitLength := rfl
@[simp] theorem startRecord_remainingDigits (s : State) : (startRecord s).remainingDigits = 2 := rfl
@[simp] theorem startRecord_mark (s : State) : (startRecord s).mark = 0x3A := rfl
@[simp] theorem startRecord_length (s : State) : (startRecord s).length = 0 := rfl
@[simp] theorem startRecord_loadOffset (s : State) : (startRecord s).loadOffset = 0 := rfl
@[simp] theorem startRecord_recType (s : State) : (startRecord s).recType = 0 := rfl
@[simp] theorem startRecord_pendingByte (s : State) : (startRecord s).pendingByte = 0 := rfl
@[simp] theorem startRecord_targetChecksum (s : State) : (startRecord s).targetChecksum = 0 := rfl
@[simp] theorem startRecord_extensionBase (s : State) : (startRecord s).extensionBase = s.extensionBase := rfl
@[simp] theorem startRecord_extensionBytePos (s : State) : (startRecord s).extensionBytePos = s.extensionBytePos := rfl
@[simp] theorem startRecord_recordByteIndex (s : State) : (startRecord s).recordByteIndex = 0 := rfl
@[simp] theorem startRecord_runningChecksum (s : State) : (startRecord s).runningChecksum = 0 := rfl
@[simp] theorem startRecord_cbBound (s : State) : (startRecord s).cbBound = s.cbBound := rfl
@[simp] theorem startRecord_fault (s : State) : (startRecord s).fault = s.fault := rfl
@[simp] theorem startRecord_result (s : State) : (startRecord s).result = s.result := rfl
@[simp] theorem startRecord_sinkLog (s : State) : (startRecord s).sinkLog = s.sinkLog := rfl
@[simp] theorem startRecord_params (s : State) : (startRecord s).params = s.params := rfl
@[simp] theorem startRecord_sinkScript (s : State) : (startRecord s).sinkScript = s.sinkScript := rfl
@[simp] theorem startRecord_inputs (s : State) : (startRecord s).inputs = s.inputs := rfl

@[simp] theorem segmentScale_phase (s : State) : (segmentScale s).phase = s.phase := rfl
@[simp] theorem segmentScale_remainingDigits (s : State) : (segmentScale s).remainingDigits = s.remainingDigits := rfl
@[simp] theorem segmentScale_mark (s : State) : (segmentScale s).mark = s.mark := rfl
@[simp] theorem segmentScale_length (s : State) : (segmentScale s).length = s.length := rfl
@[simp] theorem segmentScale_loadOffset (s : State) : (segmentScale s).loadOffset = s.loadOffset := rfl
@[simp] theorem segmentScale_recType (s : State) : (segmentScale s).recType = s.recType := rfl
@[simp] theorem segmentScale_pendingByte (s : State) : (segmentScale s).pendingByte = s.pendingByte := rfl
@[simp] theorem segmentScale_targetChecksum (s : State) : (segmentScale s).targetChecksum = s.targetChecksum := rfl
@[simp] theorem segmentScale_extensionBase (s : State) : (segmentScale s).extensionBase = s.extensionBase <<< 4 := rfl
@[simp] theorem segmentScale_extensionBytePos (s : State) : (segmentScale s).extensionBytePos = s.extensionBytePos := rfl
@[simp] theorem segmentScale_recordByteIndex (s : State) : (segmentScale s).recordByteIndex = s.recordByteIndex := rfl
@[simp] theorem segmentScale_runningChecksum (s : State) : (segmentScale s).runningChecksum = s.runningChecksum := rfl
@[simp] theorem segmentScale_cbBound (s : State) : (segmentScale s).cbBound = s.cbBound := rfl
@[simp] theorem segmentScale_fault (s : State) : (segmentScale s).fault = s.fault := rfl
@[simp] theorem segmentScale_result (s : State) : (segmentScale s).result = s.result := rfl
@[simp] theorem segmentScale_sinkLog (s : State) : (segmentScale s).sinkLog = s.sinkLog := rfl
@[simp] theorem segmentScale_params (s : State) : (segmentScale s).params = s.params := rfl
@[simp] theorem segmentScale_sinkScript (s : State) : (segmentScale s).sinkScript = s.sinkScript := rfl
@[simp] theorem segmentScale_inputs (s : State) : (segmentScale s).inputs = s.inputs := rfl

@[simp] theorem powerOnReset_phase (s : State) : (powerOnReset s).phase = State.reset.phase := rfl
@[simp] theorem powerOnReset_remainingDigits (s : State) : (powerOnReset s).remainingDigits = State.reset.remainingDigits := rfl
@[simp] theorem powerOnReset_mark (s : State) : (powerOnReset s).mark = State.reset.mark := rfl
@[simp] theorem powerOnReset_length (s : State) : (powerOnReset s).length = State.reset.length := rfl
@[simp] theorem powerOnReset_loadOffset (s : State) : (powerOnReset s).loadOffset = State.reset.loadOffset := rfl
@[simp] theorem powerOnReset_recType (s : State) : (powerOnReset s).recType = State.reset.recType := rfl
@[simp] theorem powerOnReset_pendingByte (s : State) : (powerOnReset s).pendingByte = State.reset.pendingByte := rfl
@[simp] theorem powerOnReset_targetChecksum (s : State) : (powerOnReset s).targetChecksum = State.reset.targetChecksum := rfl
@[simp] theorem powerOnReset_extensionBase (s : State) : (powerOnReset s).extensionBase = State.reset.extensionBase := rfl
@[simp] theorem powerOnReset_extensionBytePos (s : State) : (powerOnReset s).extensionBytePos = State.reset.extensionBytePos := rfl
@[simp] theorem powerOnReset_recordByteIndex (s : State) : (powerOnReset s).recordByteIndex = State.reset.recordByteIndex := rfl
@[simp] theorem powerOnReset_runningChecksum (s : State) : (powerOnReset s).runningChecksum = State.reset.runningChecksum := rfl
@[simp] theorem powerOnReset_cbBound (s : State) : (powerOnReset s).cbBound = State.reset.cbBound := rfl
@[simp] theorem powerOnReset_fault (s : State) : (powerOnReset s).fault = State.reset.fault := rfl
@[simp] theorem powerOnReset_result (s : State) : (powerOnReset s).result = State.reset.result := rfl
@[simp] theorem powerOnReset_sinkLog (s : State) : (powerOnReset s).sinkLog = s.sinkLog := rfl
@[simp] theorem powerOnReset_params (s : State) : (powerOnReset s).params = s.params := rfl
@[simp] theorem powerOnReset_sinkScript (s : State) : (powerOnReset s).sinkScript = s.sinkScript := rfl
@[simp] theorem powerOnReset_inputs (s : State) : (powerOnReset s).inputs = s.inputs := rfl

end Sys2Proof.Machine
end

