-- ==== Sys2Proof/Laws/Ops.lean ====
section
/-! SUPPORT. What each shared operation can do, said once: running a command, the sink port, the next input. -/

namespace Sys2Proof.Machine

section RunCommand
variable {rule : State → Except Stop State} {s t : State} {r : FaultReason}

theorem runCommand_refused (h : s.fault = some r) : runCommand rule s = .refused (.faultRecorded r) := by
  simp [runCommand, h]

theorem runCommand_ok (h : s.fault = none) (hr : rule s = .ok t) : runCommand rule s = .next t := by
  simp [runCommand, h, hr]

theorem runCommand_fault (h : s.fault = none) (hr : rule s = .error (.fault r)) :
    runCommand rule s = .next (takeFault r s) := by
  simp [runCommand, h, hr]

theorem runCommand_stuck {f : Fault} (h : s.fault = none) (hr : rule s = .error (.stuck f)) :
    runCommand rule s = .fault f := by
  simp [runCommand, h, hr]

theorem runCommand_refuse {q : Refusal} (h : s.fault = none) (hr : rule s = .error (.refuse q)) :
    runCommand rule s = .refused q := by
  simp [runCommand, h, hr]

/-- A command that has a next state ran in a state without a recorded fault, and either its rule ended there or it
took a fault on the state it started from. -/
theorem runCommand_next_cases (h : runCommand rule s = .next t) :
    s.fault = none ∧ (rule s = .ok t ∨ ∃ r, rule s = .error (.fault r) ∧ t = takeFault r s) := by
  unfold runCommand at h
  split at h
  · cases h
  · refine ⟨‹_›, ?_⟩
    split at h
    · exact .inl (by simp_all)
    · cases h
      exact .inr ⟨_, ‹_›, rfl⟩
    · cases h
    · cases h

end RunCommand

/-- What a request to a sink that answers does. -/
theorem sinkWrite_of_sinkAnswer {s : State} {a : Addr} {d : Byte} {st : Status} {rest : List SinkResponse}
    (h : sinkAnswer s a d = some (st, rest)) :
    sinkWrite a d s = .ok ({ s.sendRequest ⟨a, d⟩ with sinkScript := rest }, st) := by
  unfold sinkAnswer at h
  unfold sinkWrite
  split at h <;> simp_all [State.sendRequest]

/-- A request that completes was answered; else the sink re-entered or stayed silent. -/
theorem sinkWrite_cases (a : Addr) (d : Byte) (s : State) :
    (∃ st rest, sinkAnswer s a d = some (st, rest) ∧
      sinkWrite a d s = .ok ({ s.sendRequest ⟨a, d⟩ with sinkScript := rest }, st)) ∨
    (∃ w, sinkWrite a d s = .error (.refuse (.sinkReentry w))) ∨
    sinkWrite a d s = .error (.stuck .sinkNeverAnswers) := by
  unfold sinkWrite sinkAnswer
  split <;> simp_all [State.sendRequest]

theorem nextInput_cons {s : State} {i : Input} {rest : List Input} (h : s.inputs = i :: rest) :
    nextInput s = some (i, { s with inputs := rest }) := by
  simp [nextInput, h]

theorem nextInput_nil {s : State} (h : s.inputs = []) : nextInput s = none := by
  simp [nextInput, h]

/-- Every request adds itself to what `sentByte` reads, and to nothing else. -/
theorem sentByte_append (log : List SinkRequest) (q : SinkRequest) (a : Addr) :
    sentByte (log ++ [q]) a = if q.addr = a then some q.data else sentByte log a := by
  simp only [sentByte, List.reverse_append, List.reverse_singleton, List.singleton_append, List.find?_cons]
  split <;> simp_all

end Sys2Proof.Machine
end

