-- ==== Sys2Proof/Laws/Feed.lean ====
section
/-! SUPPORT. The FEED rules: which rule a command runs, the bytes of each kind of command, and one equation per
branch of FEED. -/

namespace Sys2Proof

open Machine

/-- What a hex-digit command feeds. -/
theorem Instr.hexDigit_byte {i : Instr} {n : Nibble} (h : i.hexDigit = some n) :
    i.isFeed = true ∧ nibble i.byte = some n ∧ Machine.isLineEnd i.byte = false ∧ i.byte ≠ markChar := by
  cases i <;> simp only [Instr.hexDigit, Option.some.injEq, reduceCtorEq] at h <;> subst h <;> decide

/-- A byte of the class OTHER is no digit, no line end and no mark. -/
theorem isOtherByte_spec (b : Byte) (h : isOtherByte b = true) :
    nibble b = none ∧ isLineEnd b = false ∧ b ≠ markChar := by
  revert h; revert b; decide

/-- What a well-formed command other than a hex digit and a line end feeds in a digit phase. -/
theorem Instr.invalidDigit_byte {i : Instr} (hw : i.wf = true) (h : i = .feedMark ∨ ∃ b, i = .feedOther b) :
    i.isFeed = true ∧ nibble i.byte = none ∧ Machine.isLineEnd i.byte = false := by
  obtain rfl | ⟨b, rfl⟩ := h
  · decide
  · exact ⟨rfl, (isOtherByte_spec b hw).1, (isOtherByte_spec b hw).2.1⟩

/-- The kinds of well-formed command. -/
theorem Instr.kinds (i : Instr) :
    (∃ b, i = .nop b) ∨ (∃ b, i = .init b) ∨ (∃ b, i = .begin b) ∨ i = .feedCr ∨ i = .feedLf ∨ i = .feedMark ∨
      (∃ b, i = .feedOther b) ∨ ∃ n, i.hexDigit = some n := by
  cases i <;> simp [Instr.hexDigit]

namespace Machine

/-- Every FEED command runs the one FEED rule on its byte. -/
theorem exec_feed {i : Instr} (h : i.isFeed = true) (s : State) : exec i s = runCommand (feed i.byte) s := by
  cases i <;> first | rfl | cases h

theorem exec_nop (b : Byte) (s : State) :
    exec (.nop b) s = runCommand (fun s => .ok s.respondNothing) s := rfl

theorem exec_init (b : Byte) (s : State) :
    exec (.init b) s = runCommand (fun s => .ok (bindSink s).respondNothing) s := rfl

theorem exec_begin (b : Byte) (s : State) :
    exec (.begin b) s = runCommand (fun s => .ok (beginStream s).respondNothing) s := rfl

/-- Every command runs one rule. -/
theorem exec_runCommand (i : Instr) : ∃ rule, ∀ s, exec i s = runCommand rule s := by
  cases i with
  | nop b => exact ⟨_, exec_nop b⟩
  | init b => exact ⟨_, exec_init b⟩
  | begin b => exact ⟨_, exec_begin b⟩
  | _ => exact ⟨_, exec_feed rfl⟩

/-- In the fault state every command is refused. -/
theorem exec_refused {s : State} {r : FaultReason} (h : s.fault = some r) (i : Instr) :
    exec i s = .refused (.faultRecorded r) := by
  obtain ⟨rule, hr⟩ := exec_runCommand i
  rw [hr, runCommand_refused h]

section
variable {b : Byte} {n : Nibble} {s : State} {rule : Nibble → Nat → State → Except Stop State}

theorem feed_lineEnd (h : isLineEnd b = true) : feed b s = .ok (s.respond .continue_) := by
  simp [feed, h]

/-- The digit rule of a digit phase (R124). -/
def digitRule : Phase → Nibble → Nat → State → Except Stop State
  | .awaitLength => lengthDigit
  | .awaitAddress => addressDigit
  | .awaitType => typeDigit
  | .awaitPayload => payloadDigit
  | .awaitChecksum => checksumDigit
  | .awaitMark => fun _ _ s => .ok s
  | .reserved6 => fun _ _ s => .ok s
  | .reserved7 => fun _ _ s => .ok s

theorem feed_mark (hb : isLineEnd b = false) (hp : s.phase = .awaitMark) : feed b s = markStep b s := by
  simp [feed, hb, hp]

theorem feed_digitPhase (hb : isLineEnd b = false) (hp : s.phase.isDigit = true) :
    feed b s = digitStep (digitRule s.phase) b s := by
  unfold feed
  rw [if_neg (by simp [hb])]
  split <;> simp_all [Phase.isDigit, digitRule]

theorem feed_reserved (hb : isLineEnd b = false) (hp : s.phase = .reserved6 ∨ s.phase = .reserved7) :
    feed b s = .error (.fault .illegalPhase) := by
  obtain hp | hp := hp <;> simp [feed, hb, hp]

theorem digitStep_zero (h : s.remainingDigits = 0) : digitStep rule b s = .error (.fault .counterUnderflow) := by
  rw [digitStep, if_pos h]

theorem digitStep_digit (h : s.remainingDigits ≠ 0) (hn : nibble b = some n) :
    digitStep rule b s = rule n s.takeDigit.slot s.takeDigit := by
  rw [digitStep, if_neg h]; simp [hn]

theorem digitStep_retain (h : s.remainingDigits ≠ 0) (hn : nibble b = none) (hp : s.params.slotPolicy = .retain) :
    digitStep rule b s = .ok (s.respond .invalidInput) := by
  rw [digitStep, if_neg h]; simp [hn, hp]

theorem digitStep_consume (h : s.remainingDigits ≠ 0) (hn : nibble b = none) (hp : s.params.slotPolicy = .consume) :
    digitStep rule b s = .ok (s.takeDigit.respond .invalidInput) := by
  rw [digitStep, if_neg h]; simp [hn, hp]

/-- The slot of a digit is one less than the digits that were required. -/
theorem takeDigit_slot (h : s.remainingDigits ≠ 0) : s.takeDigit.slot = s.remainingDigits.toNat - 1 := by
  have : s.remainingDigits.toNat ≠ 0 := fun h0 => h (BitVec.eq_of_toNat_eq h0)
  simp only [State.slot, takeDigit_remainingDigits]
  bv_omega

/-- A hex digit runs the digit rule of its phase. -/
theorem exec_hexDigit {i : Instr} (hi : i.hexDigit = some n) (hp : s.phase.isDigit = true)
    (hr : s.remainingDigits ≠ 0) :
    exec i s = runCommand (fun s => digitRule s.phase n (s.remainingDigits.toNat - 1) s.takeDigit) s := by
  obtain ⟨hf, hn, hl, -⟩ := Instr.hexDigit_byte hi
  rw [exec_feed hf]
  simp only [runCommand, feed_digitPhase hl hp, digitStep_digit hr hn, takeDigit_slot hr]

/-- What a FEED that ends without a stop did: ignored a line end, took AwaitMark's step, reported an invalid
character, or ran the digit rule of its phase. -/
theorem feed_ok_cases {t : State} (h : feed b s = .ok t) :
    (isLineEnd b = true ∧ t = s.respond .continue_) ∨
    (isLineEnd b = false ∧ s.phase = .awaitMark ∧ b = markChar ∧ t = (startRecord s).respondRecordStart) ∨
    (isLineEnd b = false ∧ s.phase = .awaitMark ∧ b ≠ markChar ∧ t = s.respond .continue_) ∨
    (isLineEnd b = false ∧ s.phase.isDigit = true ∧ s.remainingDigits ≠ 0 ∧ nibble b = none ∧
      t = (if s.params.slotPolicy = .retain then s else s.takeDigit).respond .invalidInput) ∨
    (isLineEnd b = false ∧ s.phase.isDigit = true ∧ s.remainingDigits ≠ 0 ∧ ∃ n, nibble b = some n ∧
      digitRule s.phase n (s.remainingDigits.toNat - 1) s.takeDigit = .ok t) := by
  by_cases hb : isLineEnd b = true
  · rw [feed_lineEnd hb] at h
    exact .inl ⟨hb, by cases h; rfl⟩
  rw [Bool.not_eq_true] at hb
  by_cases hm : s.phase = .awaitMark
  · rw [feed_mark hb hm, markStep] at h
    split at h <;> cases h <;> simp_all
  by_cases hd : s.phase.isDigit = true
  · rw [feed_digitPhase hb hd] at h
    by_cases hr : s.remainingDigits = 0
    · rw [digitStep_zero hr] at h; cases h
    cases hn : nibble b with
    | some n =>
      rw [digitStep_digit hr hn, takeDigit_slot hr] at h
      simp_all
    | none =>
      cases hp : s.params.slotPolicy with
      | retain => rw [digitStep_retain hr hn hp] at h; cases h; simp_all
      | consume => rw [digitStep_consume hr hn hp] at h; cases h; simp_all
  · rw [feed_reserved hb (by cases hp : s.phase <;> simp_all [Phase.isDigit])] at h
    cases h

/-- Why a FEED faults. -/
theorem feed_fault_cases {r : FaultReason} (h : feed b s = .error (.fault r)) :
    isLineEnd b = false ∧
    ((s.phase.isDigit = true ∧ s.remainingDigits = 0 ∧ r = .counterUnderflow) ∨
      ((s.phase = .reserved6 ∨ s.phase = .reserved7) ∧ r = .illegalPhase) ∨
      (s.phase.isDigit = true ∧ s.remainingDigits ≠ 0 ∧ ∃ n, nibble b = some n ∧
        digitRule s.phase n (s.remainingDigits.toNat - 1) s.takeDigit = .error (.fault r))) := by
  by_cases hb : isLineEnd b = true
  · rw [feed_lineEnd hb] at h; cases h
  rw [Bool.not_eq_true] at hb
  refine ⟨hb, ?_⟩
  by_cases hm : s.phase = .awaitMark
  · rw [feed_mark hb hm, markStep] at h
    split at h <;> cases h
  by_cases hd : s.phase.isDigit = true
  · rw [feed_digitPhase hb hd] at h
    by_cases hr : s.remainingDigits = 0
    · rw [digitStep_zero hr] at h; cases h; simp_all
    cases hn : nibble b with
    | some n =>
      rw [digitStep_digit hr hn, takeDigit_slot hr] at h
      simp_all
    | none =>
      cases hp : s.params.slotPolicy with
      | retain => rw [digitStep_retain hr hn hp] at h; cases h
      | consume => rw [digitStep_consume hr hn hp] at h; cases h
  · have hres : s.phase = .reserved6 ∨ s.phase = .reserved7 := by cases hp : s.phase <;> simp_all [Phase.isDigit]
    rw [feed_reserved hb hres] at h
    cases h
    exact .inr (.inl ⟨hres, rfl⟩)

end

/-! ### The payload digit, branch by branch -/

section
variable {n : Nibble} {r : Nat} {s : State}

/-- A payload digit after the place of its digit in the byte: the first digit ends there. -/
theorem payloadDigit_first (h : r % 2 = 1) :
    payloadDigit n r s = .ok ({ s with pendingByte := insertDigit s.pendingByte n 1 }.respond .continue_) := by
  have h0 : r ≠ 0 := by omega
  simp [payloadDigit, payloadSlot, h, h0, bind, Except.bind]

/-- The second digit completes the byte; the last one of the payload also enters the checksum phase. -/
theorem payloadDigit_second (h : r % 2 = 0) :
    payloadDigit n r s =
      (byteComplete { s with pendingByte := insertDigit s.pendingByte n 0 }).map
        (fun t => if r = 0 then payloadComplete t else t) := by
  simp only [payloadDigit, payloadSlot, h, bind, Except.bind, if_true]
  cases byteComplete { s with pendingByte := insertDigit s.pendingByte n 0 } <;> rfl

theorem dataByte_unbound (h : s.cbBound = false) : dataByte s = .error (.fault .unboundSink) := by
  simp [dataByte, h]

theorem dataByte_bound (h : s.cbBound = true) :
    dataByte s = (sinkWrite s.dataAddress s.pendingByte s).map fun (sent, st) =>
      State.respond { sent with recordByteIndex := sent.recordByteIndex + 1 } st := by
  simp only [dataByte, h, if_true, bind, Except.bind]
  cases sinkWrite s.dataAddress s.pendingByte s <;> rfl

theorem dataByte_answered {st : Status} {rest : List SinkResponse} (h : s.cbBound = true)
    (ha : sinkAnswer s s.dataAddress s.pendingByte = some (st, rest)) :
    dataByte s = .ok (State.respond { s with
      sinkLog := s.sinkLog ++ [⟨s.dataAddress, s.pendingByte⟩], sinkScript := rest,
      recordByteIndex := s.recordByteIndex + 1 } st) := by
  rw [dataByte_bound h, sinkWrite_of_sinkAnswer ha]
  rfl

/-- `ByteComplete` by record type (R162). -/
theorem byteComplete_data (h : s.recType = 0x00) : byteComplete s = dataByte (s.accumulate s.pendingByte) := by
  simp [byteComplete, h]

theorem byteComplete_extension (h : s.recType = 0x02 ∨ s.recType = 0x04) :
    byteComplete s = .ok ((extPlace (s.accumulate s.pendingByte)).respond .continue_) := by
  obtain h | h := h <;> simp [byteComplete, isExtensionType, h]

theorem byteComplete_other (h0 : s.recType ≠ 0x00) (h2 : s.recType ≠ 0x02) (h4 : s.recType ≠ 0x04) :
    byteComplete s = .ok ((s.accumulate s.pendingByte).respond .continue_) := by
  simp_all [byteComplete, isExtensionType]

/-- `ExtPlace` as one record update (R170, R171, R173). -/
theorem extPlace_eq (s : State) :
    extPlace s = { s with
      extensionBase :=
        if s.extensionBytePos ≤ 3 then
          (if s.recType = 0x02 ∧ s.extensionBytePos = 0 then
              (s.extensionBase ||| byteAtSlot s.pendingByte s.extensionBytePos) <<< 4
            else s.extensionBase ||| byteAtSlot s.pendingByte s.extensionBytePos)
        else s.extensionBase,
      extensionBytePos := if s.extensionBytePos ≤ 3 then s.extensionBytePos - 1 else s.extensionBytePos } := by
  unfold extPlace segmentScale
  dsimp only
  split
  · split <;> rfl
  · rfl

/-! Each of the next five says all that the second digit of a payload byte does. -/

variable (hr : r % 2 = 0)
include hr

theorem payloadDigit_other (h0 : s.recType ≠ 0x00) (h2 : s.recType ≠ 0x02) (h4 : s.recType ≠ 0x04) :
    payloadDigit n r s = .ok { s with
      pendingByte := insertDigit s.pendingByte n 0,
      runningChecksum := s.runningChecksum + insertDigit s.pendingByte n 0,
      phase := if r = 0 then .awaitChecksum else s.phase,
      remainingDigits := if r = 0 then 2 else s.remainingDigits,
      result := Result.returns .continue_ } := by
  rw [payloadDigit_second hr, byteComplete_other (by exact h0) (by exact h2) (by exact h4)]
  simp only [Except.map]
  split <;> rfl

theorem payloadDigit_extension (h : s.recType = 0x02 ∨ s.recType = 0x04) :
    payloadDigit n r s = .ok { s with
      pendingByte := insertDigit s.pendingByte n 0,
      runningChecksum := s.runningChecksum + insertDigit s.pendingByte n 0,
      extensionBase := (extPlace { s with pendingByte := insertDigit s.pendingByte n 0 }).extensionBase,
      extensionBytePos := (extPlace { s with pendingByte := insertDigit s.pendingByte n 0 }).extensionBytePos,
      phase := if r = 0 then .awaitChecksum else s.phase,
      remainingDigits := if r = 0 then 2 else s.remainingDigits,
      result := Result.returns .continue_ } := by
  rw [payloadDigit_second hr, byteComplete_extension (by exact h)]
  simp only [Except.map, extPlace_eq]
  split <;> rfl

theorem payloadDigit_unbound (h : s.recType = 0x00) (hb : s.cbBound = false) :
    payloadDigit n r s = .error (.fault .unboundSink) := by
  rw [payloadDigit_second hr, byteComplete_data (by exact h), dataByte_unbound (by exact hb)]
  rfl

theorem payloadDigit_answered {st : Status} {rest : List SinkResponse} (h : s.recType = 0x00)
    (hb : s.cbBound = true)
    (ha : sinkAnswer s s.dataAddress (insertDigit s.pendingByte n 0) = some (st, rest)) :
    payloadDigit n r s = .ok { s with
      pendingByte := insertDigit s.pendingByte n 0,
      runningChecksum := s.runningChecksum + insertDigit s.pendingByte n 0,
      recordByteIndex := s.recordByteIndex + 1,
      sinkLog := s.sinkLog ++ [⟨s.dataAddress, insertDigit s.pendingByte n 0⟩],
      sinkScript := rest,
      phase := if r = 0 then .awaitChecksum else s.phase,
      remainingDigits := if r = 0 then 2 else s.remainingDigits,
      result := Result.returns st } := by
  rw [payloadDigit_second hr, byteComplete_data (by exact h),
    dataByte_answered (st := st) (rest := rest) (by exact hb) (by exact ha)]
  simp only [Except.map]
  split <;> rfl

/-- A sink that does not answer stops the digit. -/
theorem payloadDigit_unanswered (h : s.recType = 0x00) (hb : s.cbBound = true)
    (ha : sinkAnswer s s.dataAddress (insertDigit s.pendingByte n 0) = none) :
    (∃ w rest, s.sinkScript = .reenters w :: rest ∧
      payloadDigit n r s = .error (.refuse (.sinkReentry w))) ∨
    (∃ rest, s.sinkScript = .silent :: rest ∧ payloadDigit n r s = .error (.stuck .sinkNeverAnswers)) := by
  rw [payloadDigit_second hr, byteComplete_data (by exact h), dataByte_bound (by exact hb)]
  unfold sinkAnswer at ha
  split at ha <;> simp_all [sinkWrite, Except.map]

end

end Machine

end Sys2Proof
end

