-- ==== Sys2Proof/Laws/Exec.lean ====
section
/-! SUPPORT. What a command can do, said once: the outcomes of a digit rule and of `exec`, case by case. -/

namespace Sys2Proof.Machine

section
variable {i : Instr} {n : Nibble} {r : Nat} {s t : State}

/-- A digit of `LL` (R142, R143). -/
theorem lengthDigit_cases (h : lengthDigit n r s = .ok t) :
    (r ≠ 0 ∧ t = { s with length := insertDigit s.length n r, result := Result.returns .continue_ }) ∨
    (r = 0 ∧ t = { s with
      length := insertDigit s.length n 0, runningChecksum := s.runningChecksum + insertDigit s.length n 0,
      phase := .awaitAddress, remainingDigits := 4, result := Result.returns .continue_ }) := by
  unfold lengthDigit at h
  by_cases hr : r = 0
  · subst hr; cases h; exact .inr ⟨rfl, rfl⟩
  · simp only [if_neg hr] at h; cases h; exact .inl ⟨hr, rfl⟩

/-- A digit of `AAAA` (R145, R146). -/
theorem addressDigit_cases (h : addressDigit n r s = .ok t) :
    (r ≠ 0 ∧ t = { s with loadOffset := insertDigit s.loadOffset n r, result := Result.returns .continue_ }) ∨
    (r = 0 ∧ t = { s with
      loadOffset := insertDigit s.loadOffset n 0,
      runningChecksum := s.runningChecksum + (insertDigit s.loadOffset n 0).extractLsb' 8 8 +
        (insertDigit s.loadOffset n 0).extractLsb' 0 8,
      phase := .awaitType, remainingDigits := 2, result := Result.returns .continue_ }) := by
  unfold addressDigit at h
  by_cases hr : r = 0
  · subst hr; cases h; exact .inr ⟨rfl, rfl⟩
  · simp only [if_neg hr] at h; cases h; exact .inl ⟨hr, rfl⟩

/-- The last digit of `TT` as one record update (R149, R150). -/
theorem typeDigit_last (n : Nibble) (s : State) : typeDigit n 0 s = .ok { s with
    recType := insertDigit s.recType n 0,
    runningChecksum := s.runningChecksum + insertDigit s.recType n 0,
    extensionBase := if isExtensionType (insertDigit s.recType n 0) then 0 else s.extensionBase,
    extensionBytePos :=
      if isExtensionType (insertDigit s.recType n 0) then (if insertDigit s.recType n 0 = 0x02 then 1 else 3)
      else s.extensionBytePos,
    phase := if s.length ≠ 0 then .awaitPayload else .awaitChecksum,
    remainingDigits := if s.length ≠ 0 then payloadDigits s.length else 2,
    result := Result.returns .continue_ } := by
  unfold typeDigit typeComplete
  by_cases he : isExtensionType (insertDigit s.recType n 0) <;> by_cases hl : s.length = 0#8 <;>
    (simp [he, hl, State.accumulate, extensionInit, State.enter, State.respond, Result.returns, addToSum]; try rfl)

/-- A digit of `TT` (R148 to R150). -/
theorem typeDigit_cases (h : typeDigit n r s = .ok t) :
    (r ≠ 0 ∧ t = { s with recType := insertDigit s.recType n r, result := Result.returns .continue_ }) ∨
    (r = 0 ∧ ∃ tt, tt = insertDigit s.recType n 0 ∧ t = { s with
      recType := tt, runningChecksum := s.runningChecksum + tt,
      extensionBase := if isExtensionType tt then 0 else s.extensionBase,
      extensionBytePos := if isExtensionType tt then (if tt = 0x02 then 1 else 3) else s.extensionBytePos,
      phase := if s.length ≠ 0 then .awaitPayload else .awaitChecksum,
      remainingDigits := if s.length ≠ 0 then payloadDigits s.length else 2,
      result := Result.returns .continue_ }) := by
  by_cases hr : r = 0
  · subst hr
    rw [typeDigit_last] at h
    cases h
    exact .inr ⟨rfl, _, rfl, rfl⟩
  · simp only [typeDigit, if_neg hr] at h
    cases h
    exact .inl ⟨hr, rfl⟩

/-- A digit of `CC` (R192, R193). -/
theorem checksumDigit_cases (h : checksumDigit n r s = .ok t) :
    (r ≠ 0 ∧ t = { s with
      targetChecksum := insertDigit s.targetChecksum n r, result := Result.returns .continue_ }) ∨
    (r = 0 ∧ t = { s with
      targetChecksum := insertDigit s.targetChecksum n 0, phase := .awaitMark,
      result := Result.returns (recordStatus s.recType s.runningChecksum (insertDigit s.targetChecksum n 0)) }) := by
  unfold checksumDigit at h
  by_cases hr : r = 0
  · subst hr; cases h; exact .inr ⟨rfl, rfl⟩
  · simp only [if_neg hr] at h; cases h; exact .inl ⟨hr, rfl⟩

/-- A payload digit (R160 to R173): the first digit of a byte, or the second one, by record type. -/
theorem payloadDigit_cases (h : payloadDigit n r s = .ok t) :
    (r % 2 = 1 ∧ t = { s with
      pendingByte := insertDigit s.pendingByte n 1, result := Result.returns .continue_ }) ∨
    (r % 2 = 0 ∧ ∃ base pos idx log script st, t = { s with
      pendingByte := insertDigit s.pendingByte n 0,
      runningChecksum := s.runningChecksum + insertDigit s.pendingByte n 0,
      extensionBase := base, extensionBytePos := pos, recordByteIndex := idx, sinkLog := log, sinkScript := script,
      phase := if r = 0 then .awaitChecksum else s.phase,
      remainingDigits := if r = 0 then 2 else s.remainingDigits,
      result := Result.returns st } ∧
      ((s.recType = 0x00 ∧ s.cbBound = true ∧
          sinkAnswer s s.dataAddress (insertDigit s.pendingByte n 0) = some (st, script) ∧
          log = s.sinkLog ++ [⟨s.dataAddress, insertDigit s.pendingByte n 0⟩] ∧ idx = s.recordByteIndex + 1 ∧
          base = s.extensionBase ∧ pos = s.extensionBytePos) ∨
        ((s.recType = 0x02 ∨ s.recType = 0x04) ∧ st = .continue_ ∧ script = s.sinkScript ∧ log = s.sinkLog ∧
          idx = s.recordByteIndex ∧
          base = (extPlace { s with pendingByte := insertDigit s.pendingByte n 0 }).extensionBase ∧
          pos = (extPlace { s with pendingByte := insertDigit s.pendingByte n 0 }).extensionBytePos) ∨
        (s.recType ≠ 0x00 ∧ s.recType ≠ 0x02 ∧ s.recType ≠ 0x04 ∧ st = .continue_ ∧ script = s.sinkScript ∧
          log = s.sinkLog ∧ idx = s.recordByteIndex ∧ base = s.extensionBase ∧ pos = s.extensionBytePos))) := by
  obtain hr | hr := Nat.mod_two_eq_zero_or_one r
  · refine .inr ⟨hr, ?_⟩
    by_cases h0 : s.recType = 0x00
    · by_cases hb : s.cbBound = true
      case neg => rw [payloadDigit_unbound hr h0 (by simpa using hb)] at h; cases h
      case pos =>
        cases ha : sinkAnswer s s.dataAddress (insertDigit s.pendingByte n 0) with
        | none =>
          obtain ⟨_, _, _, he⟩ | ⟨_, _, he⟩ := payloadDigit_unanswered (n := n) hr h0 hb ha <;>
            rw [he] at h <;> cases h
        | some a =>
          rw [payloadDigit_answered hr h0 hb ha] at h
          cases h
          exact ⟨_, _, _, _, _, _, rfl, .inl ⟨h0, hb, rfl, rfl, rfl, rfl, rfl⟩⟩
    by_cases he : s.recType = 0x02 ∨ s.recType = 0x04
    · rw [payloadDigit_extension hr he] at h
      cases h
      exact ⟨_, _, _, _, _, _, rfl, .inr (.inl ⟨he, rfl, rfl, rfl, rfl, rfl, rfl⟩)⟩
    · rw [not_or] at he
      rw [payloadDigit_other hr h0 he.1 he.2] at h
      cases h
      exact ⟨_, _, _, _, _, _, rfl, .inr (.inr ⟨h0, he.1, he.2, rfl, rfl, rfl, rfl, rfl, rfl⟩)⟩
  · rw [payloadDigit_first hr] at h
    cases h
    exact .inl ⟨hr, rfl⟩

/-- Only an unbound sink makes a digit rule fault, on a completed byte of a data record (R165). -/
theorem digitRule_fault_cases {p : Phase} {q : FaultReason} (h : digitRule p n r s = .error (.fault q)) :
    p = .awaitPayload ∧ r % 2 = 0 ∧ s.recType = 0x00 ∧ s.cbBound = false ∧ q = .unboundSink := by
  cases p with
  | awaitPayload =>
    rw [digitRule] at h
    obtain hr | hr := Nat.mod_two_eq_zero_or_one r
    · by_cases h0 : s.recType = 0x00
      · cases hb : s.cbBound with
        | false => rw [payloadDigit_unbound hr h0 hb] at h; cases h; exact ⟨rfl, hr, h0, rfl, rfl⟩
        | true =>
          cases ha : sinkAnswer s s.dataAddress (insertDigit s.pendingByte n 0) with
          | none =>
            obtain ⟨_, _, _, he⟩ | ⟨_, _, he⟩ := payloadDigit_unanswered (n := n) hr h0 hb ha <;>
              rw [he] at h <;> cases h
          | some a => rw [payloadDigit_answered hr h0 hb ha] at h; cases h
      by_cases he : s.recType = 0x02 ∨ s.recType = 0x04
      · rw [payloadDigit_extension hr he] at h; cases h
      · rw [not_or] at he
        rw [payloadDigit_other hr h0 he.1 he.2] at h; cases h
    · rw [payloadDigit_first hr] at h; cases h
  | _ => simp [digitRule, lengthDigit, addressDigit, typeDigit, checksumDigit] at h

/-- A command that has a next state: NOP, INIT, BEGIN, or a FEED that ended or took a fault. -/
theorem exec_next_cases (h : exec i s = .next t) :
    s.fault = none ∧
    ((∃ b, i = .nop b ∧ t = s.respondNothing) ∨
      (∃ b, i = .init b ∧ t = (bindSink s).respondNothing) ∨
      (∃ b, i = .begin b ∧ t = (beginStream s).respondNothing) ∨
      (i.isFeed = true ∧ (feed i.byte s = .ok t ∨
        ∃ q, feed i.byte s = .error (.fault q) ∧ t = takeFault q s))) := by
  by_cases hf : i.isFeed = true
  · rw [exec_feed hf] at h
    obtain ⟨h1, h2⟩ := runCommand_next_cases h
    exact ⟨h1, .inr (.inr (.inr ⟨hf, h2⟩))⟩
  · obtain ⟨b, rfl⟩ | ⟨b, rfl⟩ | ⟨b, rfl⟩ : (∃ b, i = .nop b) ∨ (∃ b, i = .init b) ∨ (∃ b, i = .begin b) := by
      cases i <;> first | exact absurd rfl hf | simp
    · rw [exec_nop] at h
      obtain ⟨h1, h2 | ⟨_, h2, _⟩⟩ := runCommand_next_cases h <;> cases h2
      exact ⟨h1, .inl ⟨b, rfl, rfl⟩⟩
    · rw [exec_init] at h
      obtain ⟨h1, h2 | ⟨_, h2, _⟩⟩ := runCommand_next_cases h <;> cases h2
      exact ⟨h1, .inr (.inl ⟨b, rfl, rfl⟩)⟩
    · rw [exec_begin] at h
      obtain ⟨h1, h2 | ⟨_, h2, _⟩⟩ := runCommand_next_cases h <;> cases h2
      exact ⟨h1, .inr (.inr (.inl ⟨b, rfl, rfl⟩))⟩

end

end Sys2Proof.Machine
end

