-- ==== Sys2Proof/Laws/PerInstr.lean ====
section
/-! SUPPORT. The family EncodeFields, one lemma per constructor: the two fields of a command's word are its command code
and its byte (30_encoding.md R70). -/

namespace Sys2Proof

/-- The fields of a composed word. -/
theorem cmdWord_fields (c : BitVec 2) (b : Byte) : cmdOf (cmdWord c b) = c ∧ byteOf (cmdWord c b) = b := by
  revert c b; decide

namespace Laws.EncodeFields

/-- The word of `i` has the command code and the byte of `i` in its two fields. -/
def Statement (i : Instr) : Prop := cmdOf (encode i) = i.cmd ∧ byteOf (encode i) = i.byte

theorem nop (b : Byte) : Statement (.nop b) := cmdWord_fields 0 b
theorem init (b : Byte) : Statement (.init b) := cmdWord_fields 1 b
theorem begin (b : Byte) : Statement (.begin b) := cmdWord_fields 2 b
theorem feedCr : Statement .feedCr := cmdWord_fields 3 0x0D
theorem feedLf : Statement .feedLf := cmdWord_fields 3 0x0A
theorem feedMark : Statement .feedMark := cmdWord_fields 3 0x3A
theorem feedHex0 : Statement .feedHex0 := cmdWord_fields 3 0x30
theorem feedHex1 : Statement .feedHex1 := cmdWord_fields 3 0x31
theorem feedHex2 : Statement .feedHex2 := cmdWord_fields 3 0x32
theorem feedHex3 : Statement .feedHex3 := cmdWord_fields 3 0x33
theorem feedHex4 : Statement .feedHex4 := cmdWord_fields 3 0x34
theorem feedHex5 : Statement .feedHex5 := cmdWord_fields 3 0x35
theorem feedHex6 : Statement .feedHex6 := cmdWord_fields 3 0x36
theorem feedHex7 : Statement .feedHex7 := cmdWord_fields 3 0x37
theorem feedHex8 : Statement .feedHex8 := cmdWord_fields 3 0x38
theorem feedHex9 : Statement .feedHex9 := cmdWord_fields 3 0x39
theorem feedHexUpperA : Statement .feedHexUpperA := cmdWord_fields 3 0x41
theorem feedHexUpperB : Statement .feedHexUpperB := cmdWord_fields 3 0x42
theorem feedHexUpperC : Statement .feedHexUpperC := cmdWord_fields 3 0x43
theorem feedHexUpperD : Statement .feedHexUpperD := cmdWord_fields 3 0x44
theorem feedHexUpperE : Statement .feedHexUpperE := cmdWord_fields 3 0x45
theorem feedHexUpperF : Statement .feedHexUpperF := cmdWord_fields 3 0x46
theorem feedHexLowerA : Statement .feedHexLowerA := cmdWord_fields 3 0x61
theorem feedHexLowerB : Statement .feedHexLowerB := cmdWord_fields 3 0x62
theorem feedHexLowerC : Statement .feedHexLowerC := cmdWord_fields 3 0x63
theorem feedHexLowerD : Statement .feedHexLowerD := cmdWord_fields 3 0x64
theorem feedHexLowerE : Statement .feedHexLowerE := cmdWord_fields 3 0x65
theorem feedHexLowerF : Statement .feedHexLowerF := cmdWord_fields 3 0x66
theorem feedOther (b : Byte) : Statement (.feedOther b) := cmdWord_fields 3 b

end Laws.EncodeFields

end Sys2Proof
end

