-- ==== Sys2Proof/Laws/Step.lean ====
section
/-! SUPPORT. What a step can do, said once. -/

namespace Sys2Proof.Machine

/-- A step that has a next state was idle, took the reset input, or ran the command its word decodes to. -/
theorem step_next_cases {s t : State} (h : step s = .next t) :
    (s.inputs = [] ∧ t = s) ∨
    (∃ rest, s.inputs = .powerOnReset :: rest ∧ t = powerOnReset { s with inputs := rest }) ∨
    (∃ w rest i, s.inputs = .command w :: rest ∧ decode w = some i ∧
      exec i { s with inputs := rest } = .next t) := by
  cases hi : s.inputs with
  | nil =>
    rw [step, nextInput_nil hi] at h
    cases h
    exact .inl ⟨rfl, rfl⟩
  | cons x rest =>
    rw [step, nextInput_cons hi] at h
    cases x with
    | powerOnReset => cases h; exact .inr (.inl ⟨rest, rfl, rfl⟩)
    | command w =>
      cases hd : decode w with
      | none => simp [hd] at h
      | some i => exact .inr (.inr ⟨w, rest, i, rfl, hd, by simpa [hd] using h⟩)

/-- `withFetchWord` only puts a command in front of the inputs. -/
theorem withFetchWord_inputs (s : State) (nbits w : Nat) :
    (s.withFetchWord nbits w).inputs = .command (tableWord nbits w) :: s.inputs := rfl

end Sys2Proof.Machine
end

