-- ==== Sys2Proof/Tests/Slice0.lean ====
section
/-! SUPPORT. Tests of the model, each expected value from spec/ (named in the docstring), and the witnesses of the
hypotheses of the obligations. -/

namespace Sys2Proof.Tests

open Sys2Proof.Machine

/-! ## Helpers -/

/-- A bound block with a sink that answers `st` once. -/
def bound (st : Status) : State := { State.reset with cbBound := true, sinkScript := [.answers st] }

/-- A bound block in a phase with `digits` digits to come. -/
def at_ (p : Phase) (digits : BitVec 9) : State := { bound .continue_ with phase := p, remainingDigits := digits }

/-- A block inside the payload of a record of three bytes. -/
def inPayload (type : Byte) (digits : BitVec 9) : State :=
  { at_ .awaitPayload digits with mark := 0x3A, length := 3, recType := type }

/-- The same under `Consume`. -/
def consuming (s : State) : State := { s with params := { s.params with slotPolicy := .consume } }

/-- A view of the next state. -/
def view {α : Type} (f : State → α) : Host.Outcome State Fault Refusal → Option α
  | .next t => some (f t)
  | .fault _ => none
  | .refused _ => none

/-- The refusal of a step. -/
def refusal : Host.Outcome State Fault Refusal → Option Refusal
  | .refused r => some r
  | .next _ => none
  | .fault _ => none

/-- The fault of a step. -/
def stuckFault : Host.Outcome State Fault Refusal → Option Fault
  | .fault f => some f
  | .next _ => none
  | .refused _ => none

/-- The status word of the result, at the default width. -/
def status (s : State) : Option Nat := s.result.status.map fun st => (statusWord 8 st).toNat

/-! ## Decoding: words from the match column of the opcode table (R70, R72, R89) -/

theorem test_decode_commands :
    decode 0b0000000000 = some (.nop 0x00) ∧ decode 0b0011111111 = some (.nop 0xFF) ∧
    decode 0b0100000000 = some (.init 0x00) ∧ decode 0b0110100101 = some (.init 0xA5) ∧
    decode 0b1000000000 = some (.begin 0x00) ∧ decode 0b1000111010 = some (.begin 0x3A) := by decide

theorem test_decode_lines_and_mark :
    decode 0b1100001101 = some .feedCr ∧ decode 0b1100001010 = some .feedLf ∧
    decode 0b1100111010 = some .feedMark := by decide

theorem test_decode_decimal_digits :
    decode 0b1100110000 = some .feedHex0 ∧ decode 0b1100110001 = some .feedHex1 ∧
    decode 0b1100110010 = some .feedHex2 ∧ decode 0b1100110011 = some .feedHex3 ∧
    decode 0b1100110100 = some .feedHex4 ∧ decode 0b1100110101 = some .feedHex5 ∧
    decode 0b1100110110 = some .feedHex6 ∧ decode 0b1100110111 = some .feedHex7 ∧
    decode 0b1100111000 = some .feedHex8 ∧ decode 0b1100111001 = some .feedHex9 := by decide

theorem test_decode_upper_digits :
    decode 0b1101000001 = some .feedHexUpperA ∧ decode 0b1101000010 = some .feedHexUpperB ∧
    decode 0b1101000011 = some .feedHexUpperC ∧ decode 0b1101000100 = some .feedHexUpperD ∧
    decode 0b1101000101 = some .feedHexUpperE ∧ decode 0b1101000110 = some .feedHexUpperF := by decide

theorem test_decode_lower_digits :
    decode 0b1101100001 = some .feedHexLowerA ∧ decode 0b1101100010 = some .feedHexLowerB ∧
    decode 0b1101100011 = some .feedHexLowerC ∧ decode 0b1101100100 = some .feedHexLowerD ∧
    decode 0b1101100101 = some .feedHexLowerE ∧ decode 0b1101100110 = some .feedHexLowerF := by decide

/-- The bytes next to the ranges (R121), NUL and 0xFF (R107). -/
theorem test_decode_other :
    decode 0b1100101111 = some (.feedOther 0x2F) ∧ decode 0b1100111011 = some (.feedOther 0x3B) ∧
    decode 0b1101000000 = some (.feedOther 0x40) ∧ decode 0b1101000111 = some (.feedOther 0x47) ∧
    decode 0b1101100000 = some (.feedOther 0x60) ∧ decode 0b1101100111 = some (.feedOther 0x67) ∧
    decode 0b1100000000 = some (.feedOther 0x00) ∧ decode 0b1111111111 = some (.feedOther 0xFF) := by decide

/-- R70 in the table's 16-bit container. -/
theorem test_decodeTableWord :
    decodeTableWord 16 0x33A = some .feedMark ∧ decodeTableWord 16 0x200 = some (.begin 0) ∧
    decodeTableWord 8 0x3A = some (.nop 0x3A) := by decide

theorem test_encode : encode .feedHexLowerF = 0x366 ∧ encode (.feedOther 0x47) = 0x347 ∧ encode (.init 0) = 0x100 := by
  decide

/-! ## WellFormed: an ill-formed FEED.OTHER for each class it excludes, and the bytes just outside (R72) -/

theorem test_wf_refuses_cr : Instr.wf (.feedOther 0x0D) = false ∧ Instr.wf (.feedOther 0x0C) = true := by decide
theorem test_wf_refuses_lf : Instr.wf (.feedOther 0x0A) = false ∧ Instr.wf (.feedOther 0x0B) = true := by decide
theorem test_wf_refuses_mark : Instr.wf (.feedOther 0x3A) = false ∧ Instr.wf (.feedOther 0x3B) = true := by decide
theorem test_wf_refuses_decimal :
    Instr.wf (.feedOther 0x30) = false ∧ Instr.wf (.feedOther 0x39) = false ∧ Instr.wf (.feedOther 0x2F) = true := by
  decide
theorem test_wf_refuses_upper :
    Instr.wf (.feedOther 0x41) = false ∧ Instr.wf (.feedOther 0x46) = false ∧ Instr.wf (.feedOther 0x40) = true ∧
    Instr.wf (.feedOther 0x47) = true := by decide
theorem test_wf_refuses_lower :
    Instr.wf (.feedOther 0x61) = false ∧ Instr.wf (.feedOther 0x66) = false ∧ Instr.wf (.feedOther 0x60) = true ∧
    Instr.wf (.feedOther 0x67) = true := by decide

/-! ## Operations -/

/-- T1. -/
theorem test_nibble :
    nibble 0x2F = none ∧ nibble 0x30 = some 0 ∧ nibble 0x39 = some 9 ∧ nibble 0x3A = none ∧ nibble 0x40 = none ∧
    nibble 0x41 = some 10 ∧ nibble 0x46 = some 15 ∧ nibble 0x47 = none ∧ nibble 0x60 = none ∧
    nibble 0x61 = some 10 ∧ nibble 0x66 = some 15 ∧ nibble 0x67 = none ∧ nibble 0x0D = none ∧ nibble 0xB0 = none := by
  decide

/-- T2. -/
theorem test_insertDigit :
    insertDigit (0x00 : Byte) 0xA 1 = 0xA0 ∧ insertDigit (0xA0 : Byte) 0x5 0 = 0xA5 ∧
    insertDigit (0x5A : Byte) 0x3 1 = 0x3A ∧ insertDigit (0xFF : Byte) 0x0 0 = 0xF0 ∧
    insertDigit (0xFFFF : BitVec 16) 0x0 2 = 0xF0FF ∧ insertDigit (0x1234 : BitVec 16) 0xF 3 = 0xF234 := by decide

/-- T4.1. -/
theorem test_finalize :
    finalize 0x00 = 0x00 ∧ finalize 0x01 = 0xFF ∧ finalize 0x04 = 0xFC ∧ finalize 0x14 = 0xEC ∧
    finalize 0x80 = 0x80 ∧ finalize 0xE2 = 0x1E ∧ finalize 0xFF = 0x01 := by decide

/-- R80: the words of its table. -/
theorem test_statusWord :
    (statusWord 8 .end_).toNat = 0x001 ∧ (statusWord 8 (.own 0xFF)).toNat = 0x0FF ∧
    (statusWord 8 (.ext 0x07)).toNat = 0x107 ∧ (statusWord 8 (.ext 0xFF)).toNat = 0x1FF := by decide

/-! ## Commands -/

/-- T10.4: NOP returns no status and keeps the count. -/
theorem test_nop : view (fun t => (t.phase, t.remainingDigits, t.result)) (exec (.nop 0x3A) (at_ .awaitAddress 4)) =
    some (.awaitAddress, 4, Result.nothing) := by decide

/-- R100, its example. -/
theorem test_init : view (fun t => (t.cbBound, t.phase, t.result)) (exec (.init 0) State.reset) =
    some (true, .awaitMark, Result.nothing) := by decide

/-- R101, its example; T10.1: the count stays. -/
theorem test_begin : view (fun t => (t.phase, t.extensionBase, t.remainingDigits, t.cbBound))
    (exec (.begin 0) { inPayload 0 6 with extensionBase := 0xFFFF0000 }) = some (.awaitMark, 0, 6, true) := by decide

/-- R104, its example, and T8.4: ignored at a count of 0 too. -/
theorem test_feedCr :
    view (fun t => (t.phase, t.remainingDigits, status t)) (exec .feedCr (at_ .awaitAddress 4)) =
      some (.awaitAddress, 4, some 0x000) ∧
    view (fun t => (t.fault, status t)) (exec .feedCr (consuming (at_ .awaitChecksum 0))) =
      some (none, some 0x000) := by decide

/-- R73: LF is recognised before the phase, even a reserved one. -/
theorem test_feedLf : view (fun t => (t.fault, status t)) (exec .feedLf (at_ .reserved6 0)) =
    some (none, some 0x000) := by decide

/-- R141, its example. -/
theorem test_feedMark_starts :
    view (fun t => (t.runningChecksum, t.phase, t.remainingDigits, t.mark, t.result.recStart))
      (exec .feedMark { bound .continue_ with runningChecksum := 0x55 }) = some (0, .awaitLength, 2, 0x3A, true) := by
  decide

/-- T7.3: `:` in the address field. -/
theorem test_feedMark_in_record :
    view (fun t => (t.phase, t.remainingDigits, status t, t.result.recStart)) (exec .feedMark (at_ .awaitAddress 4)) =
      some (.awaitAddress, 4, some 0x002, false) := by decide

/-- E5: the bytes of its list in AwaitMark and in a digit phase. -/
theorem test_feedOther :
    view status (exec (.feedOther 0x78) (bound .continue_)) = some (some 0x000) ∧
    view (fun t => (t.remainingDigits, status t)) (exec (.feedOther 0xFF) (at_ .awaitAddress 4)) =
      some (4, some 0x002) := by decide

/-- R125, T8.2: under `Consume` the invalid character takes a slot. -/
theorem test_feedOther_consume :
    view (fun t => (t.phase, t.remainingDigits, status t)) (exec (.feedOther 0x47) (consuming (at_ .awaitAddress 2))) =
      some (.awaitAddress, 1, some 0x002) := by decide

/-- R121: the first digit of `LL` lands in slot 1, for each of the 22 characters (R142: `'f'` gives 0xF0). -/
theorem test_every_hex_digit :
    ([Instr.feedHex0, .feedHex1, .feedHex2, .feedHex3, .feedHex4, .feedHex5, .feedHex6, .feedHex7, .feedHex8,
      .feedHex9, .feedHexUpperA, .feedHexUpperB, .feedHexUpperC, .feedHexUpperD, .feedHexUpperE, .feedHexUpperF,
      .feedHexLowerA, .feedHexLowerB, .feedHexLowerC, .feedHexLowerD, .feedHexLowerE, .feedHexLowerF].map
        fun i => view (·.length) (exec i (at_ .awaitLength 2))) =
      ([0x00, 0x10, 0x20, 0x30, 0x40, 0x50, 0x60, 0x70, 0x80, 0x90, 0xA0, 0xB0, 0xC0, 0xD0, 0xE0, 0xF0, 0xA0, 0xB0,
        0xC0, 0xD0, 0xE0, 0xF0] : List Byte).map some := by decide

/-- R143, its example. -/
theorem test_length_complete :
    view (fun t => (t.length, t.runningChecksum, t.phase, t.remainingDigits)) (exec .feedHex3 (at_ .awaitLength 1)) =
      some (0x03, 0x03, .awaitAddress, 4) := by decide

/-- R145, its example. -/
theorem test_address_digit :
    view (fun t => (t.loadOffset, t.remainingDigits)) (exec .feedHex3 (at_ .awaitAddress 2)) = some (0x0030, 1) := by
  decide

/-- T1, T3: `:03ABCD`, its last digit. -/
theorem test_address_complete :
    view (fun t => (t.loadOffset, t.runningChecksum, t.phase, t.remainingDigits))
      (exec .feedHexUpperD { at_ .awaitAddress 1 with loadOffset := 0xABC0, runningChecksum := 0x03 }) =
      some (0xABCD, 0x7B, .awaitType, 2) := by decide

/-- R149, its example. -/
theorem test_type_complete :
    view (fun t => (t.recType, t.runningChecksum, t.phase, t.remainingDigits))
      (exec .feedHex0 { at_ .awaitType 1 with length := 3, runningChecksum := 0x33 }) =
      some (0x00, 0x33, .awaitPayload, 6) := by decide

/-- T3: `:FF` needs 510 digits; a length of 0 goes to the checksum. -/
theorem test_type_length_bounds :
    view (·.remainingDigits) (exec .feedHex0 { at_ .awaitType 1 with length := 0xFF }) = some 510 ∧
    view (fun t => (t.phase, t.remainingDigits)) (exec .feedHex1 (at_ .awaitType 1)) = some (.awaitChecksum, 2) := by
  decide

/-- R150, its example, and T6: a type-02 record of no bytes. -/
theorem test_extension_init :
    view (fun t => (t.extensionBase, t.extensionBytePos, t.phase, t.remainingDigits))
      (exec .feedHex4 { at_ .awaitType 1 with length := 2, extensionBase := 0x00000100 }) =
      some (0, 3, .awaitPayload, 4) ∧
    view (fun t => (t.extensionBase, t.extensionBytePos, t.phase))
      (exec .feedHex2 { at_ .awaitType 1 with extensionBase := 0x11220000 }) = some (0, 1, .awaitChecksum) := by decide

/-- R165, its example: the second byte of E1 (R162: the sum goes from 0x35 to 0x68). -/
theorem test_data_byte :
    view (fun t => (t.pendingByte, t.runningChecksum, t.recordByteIndex, t.sinkLog))
      (exec .feedHex3 { inPayload 0x00 3 with
        loadOffset := 0x0030, pendingByte := 0x32, runningChecksum := 0x35, recordByteIndex := 1 }) =
      some (0x33, 0x68, 2, [⟨0x00000031, 0x33⟩]) := by decide

/-- T5.1: the address sum wraps. -/
theorem test_data_address_wraps :
    view (fun t => (t.sinkLog, t.phase, t.remainingDigits))
      (exec .feedHexUpperB { inPayload 0x00 1 with
        extensionBase := 0xFFFF0000, loadOffset := 0xFFFF, pendingByte := 0xBA, recordByteIndex := 1 }) =
      some ([⟨0x00000000, 0xBB⟩], .awaitChecksum, 2) := by decide

/-- T5.2: the sink's status is passed through and changes nothing else. -/
theorem test_sink_status_passes :
    view (fun t => (status t, t.recordByteIndex))
      (exec .feedHex3 { inPayload 0x00 3 with sinkScript := [.answers (.ext 0x07)], recordByteIndex := 1 }) =
      some (some 0x107, 2) := by decide

/-- R163, T4.8: the second byte of `:02000001AABB98`. -/
theorem test_other_type_discards :
    view (fun t => (t.runningChecksum, t.sinkLog, t.phase))
      (exec .feedHexUpperB { inPayload 0x01 1 with pendingByte := 0xBA, runningChecksum := 0xAD }) =
      some (0x68, [], .awaitChecksum) := by decide

/-- R170, its example; R171, its example. -/
theorem test_extension_bytes :
    view (fun t => (t.extensionBase, t.extensionBytePos))
      (exec .feedHexUpperF { inPayload 0x04 3 with pendingByte := 0xF0, extensionBytePos := 3 }) =
      some (0xFF000000, 2) ∧
    view (fun t => (t.extensionBase, t.extensionBytePos))
      (exec .feedHex0 { inPayload 0x02 1 with pendingByte := 0x10, extensionBytePos := 0 }) =
      some (0x00000100, 7) := by decide

/-- R173, T6: the fifth byte of `:05000004123456789A49` is only summed. -/
theorem test_extension_byte_past_the_slots :
    view (fun t => (t.extensionBase, t.extensionBytePos, t.runningChecksum))
      (exec .feedHexUpperA { inPayload 0x04 1 with
        pendingByte := 0x98, extensionBytePos := 7, extensionBase := 0x12345678, runningChecksum := 0x1D }) =
      some (0x12345678, 7, 0xB7) := by decide

/-- E1: its last digit; T4.3: a wrong one. -/
theorem test_checksum :
    view (fun t => (status t, t.phase, t.remainingDigits))
      (exec .feedHexUpperE { at_ .awaitChecksum 1 with targetChecksum := 0x10, runningChecksum := 0xE2 }) =
      some (some 0x000, .awaitMark, 0) ∧
    view (fun t => (status t, t.targetChecksum))
      (exec .feedHexUpperF { at_ .awaitChecksum 1 with targetChecksum := 0x10, runningChecksum := 0xE2 }) =
      some (some 0x003, 0x1F) := by decide

/-- E2: End, whatever the checksum. -/
theorem test_end :
    view (fun t => (status t, t.phase))
      (exec .feedHex0 { at_ .awaitChecksum 1 with recType := 0x01, runningChecksum := 0x01 }) =
      some (some 0x001, .awaitMark) := by decide

/-- T9.1: a data byte before INIT. -/
theorem test_unboundSink :
    view (fun t => (t.fault, t.pendingByte, t.remainingDigits, t.runningChecksum, t.sinkLog))
      (exec .feedHex5 { inPayload 0x00 1 with cbBound := false, pendingByte := 0x50, runningChecksum := 0x01 }) =
      some (some .unboundSink, 0x50, 1, 0x01, []) := by decide

/-- T8.4: the digit after the stuck state faults, and BEGIN is then refused. -/
theorem test_counterUnderflow :
    view (fun t => (t.fault, t.phase)) (exec .feedHex0 (consuming (at_ .awaitChecksum 0))) =
      some (some .counterUnderflow, .awaitChecksum) ∧
    refusal (exec (.begin 0) { at_ .awaitChecksum 0 with fault := some .counterUnderflow }) =
      some (.faultRecorded .counterUnderflow) := by decide

/-- R103: FEED in a reserved phase. -/
theorem test_illegalPhase : view (·.fault) (exec .feedMark (at_ .reserved7 0)) = some (some .illegalPhase) := by decide

/-- R217: the sink re-enters. -/
theorem test_sinkReentry :
    refusal (exec .feedHex0 { inPayload 0x00 1 with sinkScript := [.reenters 0x200] }) =
      some (.sinkReentry 0x200) := by decide

/-- R253: the sink never answers. -/
theorem test_sinkNeverAnswers :
    stuckFault (exec .feedHex0 { inPayload 0x00 1 with sinkScript := [.silent] }) = some .sinkNeverAnswers := by decide

/-- A step runs the word placed as the next command. -/
theorem test_withFetchWord :
    view (fun t => (t.phase, t.inputs)) (step (State.reset.withFetchWord 16 0x33A)) = some (.awaitLength, []) := by
  decide

/-- R240, R243: the reset input clears a fault and the binding; with no input nothing changes (R229). -/
theorem test_reset_input :
    view (fun t => (t.fault, t.cbBound, t.phase))
      (step { inPayload 0 3 with fault := some .unboundSink, inputs := [.powerOnReset] }) =
      some (none, false, .awaitMark) ∧
    view id (step (inPayload 0 3)) = some (inPayload 0 3) := by decide

/-! ## Witnesses: a concrete state and operands that meet the hypotheses of each obligation -/

theorem witness_DecodeEncodeAgree : Instr.wf (.feedOther 0x67) = true ∧ Instr.wf (.nop 0xFF) = true := by decide

theorem witness_InsertDigitWritesOneSlot : 4 * 3 + 4 ≤ 16 ∧ (15 : Nat) < 16 ∧ 4 * 0 + 4 ≤ 8 ∧ (0 : Nat) < 8 := by
  decide

theorem witness_StatusWordsDistinguish :
    statusOnPort 1 (.ext 1) = .ext 1 ∧ statusOnPort 1 (.own 0xFF) = .own 0xFF ∧
    statusOnPort 8 (.ext 0xFF) = .ext 0xFF := by decide

theorem witness_RecordedFaultClearedOnlyByReset :
    ({ inPayload 0 1 with fault := some .unboundSink } : State).fault = some .unboundSink := by decide

theorem witness_StepRunsDecodedCommand : decode 0x33A = some .feedMark ∧ decode 0x000 = some (.nop 0) := by decide

/-- Of NOP, INIT, BEGIN and the line ends: any state without a fault. -/
theorem witness_noFault : (inPayload 0 1).fault = none ∧ (at_ .reserved7 0).fault = none := by decide

theorem witness_AwaitMarkIgnoresOtherBytes :
    Instr.wf .feedHexLowerF = true ∧ Instr.feedHexLowerF.hexDigit.isSome = true ∧
    Instr.wf (.feedOther 0x00) = true ∧ (bound .end_).fault = none ∧ (bound .end_).phase = .awaitMark := by decide

theorem witness_MarkStartsRecord : (bound .end_).fault = none ∧ (bound .end_).phase = .awaitMark := by decide

theorem witness_InvalidCharacterBySlotPolicy :
    Instr.wf (.feedOther 0x47) = true ∧ (at_ .awaitType 1).fault = none ∧ (at_ .awaitType 1).phase.isDigit = true ∧
    (at_ .awaitType 1).remainingDigits ≠ 0 ∧ (at_ .awaitType 1).params.slotPolicy = .retain ∧
    (consuming (at_ .awaitType 1)).fault = none ∧ (consuming (at_ .awaitType 1)).phase.isDigit = true ∧
    (consuming (at_ .awaitType 1)).remainingDigits ≠ 0 ∧
    (consuming (at_ .awaitType 1)).params.slotPolicy = .consume := by decide

theorem witness_DigitStepAtZeroFaults :
    (at_ .awaitChecksum 0).fault = none ∧ (at_ .awaitChecksum 0).phase.isDigit = true ∧
    (at_ .awaitChecksum 0).remainingDigits = 0 ∧ Instr.wf (.feedOther 0x47) = true ∧
    Instr.isFeed (.feedOther 0x47) = true ∧ Instr.isFeed .feedHex0 = true ∧ Instr.isFeed .feedMark = true := by decide

theorem witness_ReservedPhaseFaults :
    Instr.wf .feedHex0 = true ∧ Instr.feedHex0.isFeed = true ∧ Instr.feedHex0 ≠ .feedCr ∧ Instr.feedHex0 ≠ .feedLf ∧
    (at_ .reserved6 1).fault = none ∧ (at_ .reserved6 1).phase = .reserved6 ∧
    (at_ .reserved7 1).phase = .reserved7 := by decide

/-- Both clauses: the digits before the last, at each end of their range, and the last. -/
theorem witness_LengthDigits :
    Instr.feedHexLowerF.hexDigit = some 0xF ∧ (at_ .awaitLength 2).fault = none ∧
    (at_ .awaitLength 2).phase = .awaitLength ∧ (at_ .awaitLength 2).remainingDigits ≠ 0 ∧
    (at_ .awaitLength 2).remainingDigits ≠ 1 ∧ (at_ .awaitLength 1).phase = .awaitLength ∧
    (at_ .awaitLength 1).remainingDigits = 1 := by decide

theorem witness_AddressDigits :
    Instr.feedHexUpperA.hexDigit = some 0xA ∧ (at_ .awaitAddress 4).fault = none ∧
    (at_ .awaitAddress 4).phase = .awaitAddress ∧ (at_ .awaitAddress 4).remainingDigits ≠ 0 ∧
    (at_ .awaitAddress 4).remainingDigits ≠ 1 ∧ (at_ .awaitAddress 2).remainingDigits ≠ 1 ∧
    (at_ .awaitAddress 1).phase = .awaitAddress ∧ (at_ .awaitAddress 1).remainingDigits = 1 := by decide

/-- The last digit too, to types 00, 02, 04 and another, of lengths 0 and 255. -/
theorem witness_TypeDigits :
    Instr.feedHex2.hexDigit = some 2 ∧ Instr.feedHex4.hexDigit = some 4 ∧ (at_ .awaitType 2).fault = none ∧
    (at_ .awaitType 2).phase = .awaitType ∧ (at_ .awaitType 2).remainingDigits ≠ 0 ∧
    (at_ .awaitType 2).remainingDigits ≠ 1 ∧ (at_ .awaitType 1).remainingDigits = 1 ∧
    insertDigit (at_ .awaitType 1).recType 2 0 = 0x02 ∧ insertDigit (at_ .awaitType 1).recType 4 0 = 0x04 ∧
    insertDigit (at_ .awaitType 1).recType 0 0 = 0x00 ∧ (at_ .awaitType 1).length = 0 ∧
    ({ at_ .awaitType 1 with length := 0xFF } : State).phase = .awaitType := by decide

theorem witness_PayloadFirstDigit :
    Instr.feedHex7.hexDigit = some 7 ∧ (inPayload 0 6).fault = none ∧ (inPayload 0 6).phase = .awaitPayload ∧
    (inPayload 0 6).remainingDigits ≠ 0 ∧ (inPayload 0 6).remainingDigits.toNat % 2 = 0 ∧
    (inPayload 0 2).remainingDigits.toNat % 2 = 0 := by decide

/-- The last byte of the payload and one before it. -/
theorem witness_PayloadByteDiscarded :
    Instr.feedHex7.hexDigit = some 7 ∧ (inPayload 0x03 1).fault = none ∧ (inPayload 0x03 1).phase = .awaitPayload ∧
    (inPayload 0x03 1).remainingDigits.toNat % 2 = 1 ∧ (inPayload 0x03 3).remainingDigits.toNat % 2 = 1 ∧
    (inPayload 0x03 1).recType ≠ 0x00 ∧ (inPayload 0x03 1).recType ≠ 0x02 ∧ (inPayload 0x03 1).recType ≠ 0x04 := by
  decide

/-- Slots 3, 0 and 7, of both types. -/
theorem witness_PayloadByteExtends :
    Instr.feedHex7.hexDigit = some 7 ∧ (inPayload 0x02 1).fault = none ∧ (inPayload 0x02 1).phase = .awaitPayload ∧
    (inPayload 0x02 1).remainingDigits.toNat % 2 = 1 ∧ (inPayload 0x02 1).recType = 0x02 ∧
    (inPayload 0x02 1).extensionBytePos = 0 ∧ (inPayload 0x04 3).recType = 0x04 ∧
    (inPayload 0x04 3).remainingDigits.toNat % 2 = 1 ∧
    ({ inPayload 0x04 3 with extensionBytePos := 3 } : State).extensionBytePos.toNat ≤ 3 ∧
    ¬({ inPayload 0x04 3 with extensionBytePos := 7 } : State).extensionBytePos.toNat ≤ 3 := by decide

/-- The bound clause with a scripted answer, at the wrap of the address; and the unbound clause. -/
theorem witness_PayloadByteToSink :
    Instr.feedHex7.hexDigit = some 7 ∧
    ∃ s : State, s.fault = none ∧ s.phase = .awaitPayload ∧ s.remainingDigits.toNat % 2 = 1 ∧ s.recType = 0x00 ∧
      s.cbBound = true ∧
      (0 : Addr).toNat = (s.extensionBase.toNat + s.loadOffset.toNat + s.recordByteIndex.toNat) % 2 ^ 32 ∧
      sinkAnswer s 0 (insertDigit s.pendingByte 7 0) = some (.ext 0x07, []) :=
  ⟨rfl, { inPayload 0x00 1 with
    extensionBase := 0xFFFF0000, loadOffset := 0xFFFF, recordByteIndex := 1, sinkScript := [.answers (.ext 0x07)] },
    by decide⟩

theorem witness_PayloadByteToSink_unscripted :
    ∃ st rest, sinkAnswer { inPayload 0x00 3 with sinkScript := [] } 0 0x07 = some (st, rest) := ⟨_, _, rfl⟩

theorem witness_PayloadByteToSink_unbound :
    ∃ s : State, s.fault = none ∧ s.phase = .awaitPayload ∧ s.remainingDigits.toNat % 2 = 1 ∧ s.recType = 0x00 ∧
      s.cbBound = false := ⟨{ inPayload 0x00 1 with cbBound := false }, by decide⟩

theorem witness_SinkReentryRefused :
    Instr.feedHex0.hexDigit.isSome = true ∧ ∃ s : State, s.fault = none ∧ s.phase = .awaitPayload ∧
      s.remainingDigits.toNat % 2 = 1 ∧ s.recType = 0x00 ∧ s.cbBound = true ∧ s.sinkScript = [.reenters 0x200] :=
  ⟨rfl, { inPayload 0x00 1 with sinkScript := [.reenters 0x200] }, by decide⟩

theorem witness_SilentSinkSticks :
    Instr.feedHex0.hexDigit.isSome = true ∧ ∃ s : State, s.fault = none ∧ s.phase = .awaitPayload ∧
      s.remainingDigits.toNat % 2 = 1 ∧ s.recType = 0x00 ∧ s.cbBound = true ∧ s.sinkScript = [.silent] :=
  ⟨rfl, { inPayload 0x00 1 with sinkScript := [.silent] }, by decide⟩

theorem witness_ChecksumDigits :
    Instr.feedHexUpperE.hexDigit = some 0xE ∧ (at_ .awaitChecksum 2).fault = none ∧
    (at_ .awaitChecksum 2).phase = .awaitChecksum ∧ (at_ .awaitChecksum 2).remainingDigits ≠ 0 ∧
    (at_ .awaitChecksum 2).remainingDigits ≠ 1 ∧ (at_ .awaitChecksum 1).remainingDigits = 1 := by decide

theorem witness_HexDigitsCaseInsensitive :
    Instr.feedHexUpperA.hexDigit.isSome = true ∧ Instr.feedHexUpperA.hexDigit = Instr.feedHexLowerA.hexDigit := by decide

/-- A command that asks the sink and one that does not. -/
theorem witness_SinkStatusNeverSteers :
    ∃ t u, exec .feedHex7 { inPayload 0x00 1 with sinkScript := [.answers .end_] } = .next t ∧
      t.sinkLog ≠ (inPayload 0x00 1).sinkLog ∧
      exec .feedHex7 { inPayload 0x03 1 with sinkScript := [.answers .end_] } = .next u ∧
      u.sinkLog = (inPayload 0x03 1).sinkLog := ⟨_, _, rfl, by decide, rfl, by decide⟩

/-- The shared hypotheses of OneStatusPerFeed, RecordStartExactly, StatusCauses, RequestsExactly, SentBytesFrame,
SinkBindingWriters and PhaseCycle: a next state without a fault and without a request. -/
theorem witness_next :
    ∃ t u, exec .feedMark (bound .end_) = .next t ∧ t.fault = none ∧ t.sinkLog = (bound .end_).sinkLog ∧
      t.result.recStart = true ∧ exec (.nop 0) (bound .end_) = .next u ∧ u.fault = none ∧
      Instr.isFeed .feedMark = true ∧ Instr.isFeed (.nop 0) = false := ⟨_, _, rfl, by decide, by decide, by decide, rfl, by decide⟩

/-- Every cause of StatusCauses occurs. -/
theorem witness_StatusCauses :
    view (·.result.status) (exec (.feedOther 0x47) (at_ .awaitType 2)) = some (some .invalidInput) ∧
    view (·.result.status) (exec .feedHex0 { at_ .awaitChecksum 1 with recType := 0x01 }) = some (some .end_) ∧
    view (·.result.status) (exec .feedHex1 (at_ .awaitChecksum 1)) = some (some .checksumError) ∧
    view (·.result.status) (exec .feedHex0 (at_ .awaitChecksum 1)) = some (some .continue_) := by decide

/-- Every reason of FaultsExactly occurs. -/
theorem witness_FaultsExactly :
    view (·.fault) (exec .feedHex0 { inPayload 0x00 1 with cbBound := false }) = some (some .unboundSink) ∧
    view (·.fault) (exec .feedMark (at_ .awaitAddress 0)) = some (some .counterUnderflow) ∧
    view (·.fault) (exec (.feedOther 0x00) (at_ .reserved6 0)) = some (some .illegalPhase) := by decide

/-- A command with a request and one without. -/
theorem witness_RequestsExactly :
    requestOf .feedHex7 { inPayload 0x00 1 with pendingByte := 0x10, loadOffset := 0x30 } =
      some ⟨0x00000030, 0x17⟩ ∧
    requestOf .feedHex7 (inPayload 0x00 2) = none ∧ requestOf .feedHex7 (inPayload 0x04 1) = none := by decide

/-- Each writer of the extension base. -/
theorem witness_ExtensionBaseWriters :
    view (·.extensionBase) (exec (.begin 0) { bound .end_ with extensionBase := 7 }) = some 0 ∧
    view (fun t => (t.recType, t.extensionBase)) (exec .feedHex4 { at_ .awaitType 1 with extensionBase := 7 }) =
      some (0x04, 0) ∧
    completesByte .feedHex4 (inPayload 0x02 1) = true ∧
    view (·.extensionBase) (exec .feedHex4 (inPayload 0x02 1)) = some 0x40 := by decide

/-- The six moves of the phases. -/
theorem witness_PhaseCycle :
    view (·.phase) (exec .feedMark (bound .end_)) = some .awaitLength ∧
    view (·.phase) (exec .feedHex0 (at_ .awaitLength 1)) = some .awaitAddress ∧
    view (·.phase) (exec .feedHex0 (at_ .awaitAddress 1)) = some .awaitType ∧
    view (·.phase) (exec .feedHex0 { at_ .awaitType 1 with length := 1 }) = some .awaitPayload ∧
    view (·.phase) (exec .feedHex0 (at_ .awaitType 1)) = some .awaitChecksum ∧
    view (·.phase) (exec .feedHex0 (inPayload 0x00 1)) = some .awaitChecksum ∧
    view (·.phase) (exec .feedHex0 (at_ .awaitChecksum 1)) = some .awaitMark := by decide

/-- A step inside a payload, for ParametersNeverWritten and the invariants. -/
def midPayload : State := { inPayload 0x00 5 with inputs := [.command 0x332] }

theorem witness_step : ∃ t, step midPayload = .next t := ⟨_, rfl⟩

theorem witness_LegalState : LegalState midPayload := by constructor <;> decide

/-- The stuck state of `Consume` is legal too (R35). -/
theorem witness_LegalState_stuck : LegalState (consuming (at_ .awaitChecksum 0)) := by constructor <;> decide

theorem witness_RetainInv : midPayload.params.slotPolicy = .retain ∧ RetainInv midPayload := by
  refine ⟨by decide, witness_LegalState, ?_, ?_, ?_, ?_, ?_, ?_, ?_, ?_, ?_, ?_⟩ <;> decide

theorem witness_Booted : Booted midPayload := by
  refine ⟨rfl, by decide, by decide, ?_, ?_⟩
  · intro r hr
    exact ⟨.continue_, by simpa [midPayload, inPayload, at_, bound] using hr⟩
  · intro x hx
    have : x = .command 0x332 := by simpa [midPayload] using hx
    rw [this]
    decide

theorem witness_InvalidCharactersDeletable :
    Instr.wf .feedMark = true ∧ ∃ t, runAll [.feedMark, .feedHex0] State.reset = .next t ∧ t.fault = none ∧
      t.params.slotPolicy = .retain ∧ t.phase.isDigit = true ∧ t.remainingDigits ≠ 0 := ⟨rfl, _, rfl, by decide⟩

/-- A record of one byte, and the record of no bytes. -/
theorem witness_DataRecordDelivered :
    ∃ s : State, s.fault = none ∧ s.phase = .awaitMark ∧ s.cbBound = true ∧ ([0x55] : List Byte).length < 256 ∧
      s.sinkScript = ([.ext 0x07] : List Status).map .answers ++ [] :=
  ⟨bound (.ext 0x07), by decide⟩

/-- The longest record. -/
theorem witness_DataRecordDelivered_longest :
    ∃ (s : State) (dd : List Byte) (sts : List Status), s.fault = none ∧ s.phase = .awaitMark ∧ s.cbBound = true ∧
      dd.length = 255 ∧ sts.length = dd.length ∧ s.sinkScript = sts.map .answers ++ [] :=
  ⟨{ bound .end_ with sinkScript := (List.replicate 255 Status.continue_).map .answers },
    List.replicate 255 0x55, List.replicate 255 .continue_, rfl, rfl, rfl, List.length_replicate,
    List.length_replicate.trans List.length_replicate.symm, (List.append_nil _).symm⟩

theorem witness_DataRecordDelivered_continue :
    (∀ st ∈ ([.continue_] : List Status), st = .continue_) ∧ (recordText 0x0010 0x00 [0x55] 0x9A).length = 13 ∧
    (bound .continue_).sinkScript = ([.continue_] : List Status).map .answers ++ [] ∧
    (bound .continue_).sinkScript = ([] : List Status).map .answers ++ [.answers .continue_] ∧
    (recordText 0x1234 0x00 [] 0xBA).length = 11 := by decide

/-- The text of E3's data record, and its sum (0x66 + 0x9A = 0). -/
theorem test_recordText :
    recordText 0x0010 0x00 [0x55] 0x9A =
      [0x3A, 0x30, 0x31, 0x30, 0x30, 0x31, 0x30, 0x30, 0x30, 0x35, 0x35, 0x39, 0x41] ∧
    recordSum 0x0010 0x00 [0x55] = 0x66 := by decide

theorem witness_ExtensionRecordSetsBase :
    (bound .end_).fault = none ∧ (bound .end_).phase = .awaitMark ∧ ((0x02 : Byte) = 0x02 ∨ (0x02 : Byte) = 0x04) ∧
    ((0x04 : Byte) = 0x02 ∨ (0x04 : Byte) = 0x04) := by decide

end Sys2Proof.Tests
end

section
/-! The step function, one equation per kind of next input, and what settles the scope obligation. -/

namespace Sys2Proof.Machine

/-- With no input the block is idle (R17, R229; log 2). -/
theorem step_of_inputs_nil {s : State} (h : s.inputs = []) : step s = .next s := by
  rw [step, nextInput_nil h]

/-- The reset input resets the state it is taken from (R240; log 1). -/
theorem step_of_powerOnReset_next {s : State} {rest : List Input} (h : s.inputs = .powerOnReset :: rest) :
    step s = .next (powerOnReset { s with inputs := rest }) := by
  rw [step, nextInput_cons h]

/-- A command word is taken from the inputs and run as the command it decodes to (R103, R110; log 1). -/
theorem step_of_command_next {s : State} {w : CmdWord} {rest : List Input} {i : Instr}
    (h : s.inputs = .command w :: rest) (hdec : decode w = some i) :
    step s = exec i { s with inputs := rest } := by
  rw [step, nextInput_cons h]
  simp only [hdec]

/-- Settles O14, from the equation of `step` for each kind of next input. -/
theorem stepRunsDecodedCommand : Obligations.StepRunsDecodedCommand := by
  intro s rest
  refine ⟨fun w i hdec => ?command, ?reset, ?idle⟩
  case command => exact step_of_command_next rfl hdec
  case reset => exact step_of_powerOnReset_next rfl
  case idle => exact step_of_inputs_nil rfl

end Sys2Proof.Machine
end

section
/-! Which registers a command can write, and how it moves within a record: what the statements about the state share.
-/

namespace Sys2Proof

/-- A FEED is a line end, the mark, a byte of the class OTHER, or a hex digit (R72). -/
theorem Instr.feed_kinds {i : Instr} (hf : i.isFeed = true) :
    i = .feedCr ∨ i = .feedLf ∨ i = .feedMark ∨ (∃ b, i = .feedOther b) ∨ ∃ n, i.hexDigit = some n := by
  obtain ⟨b, rfl⟩ | ⟨b, rfl⟩ | ⟨b, rfl⟩ | h := i.kinds
  · cases hf
  · cases hf
  · cases hf
  · exact h

/-- Only FEED.MARK feeds the mark. -/
theorem Instr.eq_feedMark_of_byte {i : Instr} (hw : i.wf = true) (hf : i.isFeed = true)
    (hb : i.byte = Machine.markChar) : i = .feedMark := by
  obtain rfl | rfl | rfl | ⟨b, rfl⟩ | ⟨n, hn⟩ := Instr.feed_kinds hf
  · exact absurd hb (by decide)
  · exact absurd hb (by decide)
  · rfl
  · exact absurd hb (isOtherByte_spec b hw).2.2
  · exact absurd hb (Instr.hexDigit_byte hn).2.2.2

/-- Only the hex-digit commands feed a character that has a nibble (R121). -/
theorem Instr.hexDigit_isSome_of_nibble {i : Instr} {n : Nibble} (hw : i.wf = true) (hf : i.isFeed = true)
    (hn : Machine.nibble i.byte = some n) : i.hexDigit.isSome = true := by
  obtain rfl | rfl | rfl | ⟨b, rfl⟩ | ⟨m, hm⟩ := Instr.feed_kinds hf
  · exact absurd hn (by decide +revert)
  · exact absurd hn (by decide +revert)
  · exact absurd hn (by decide +revert)
  · simp [(isOtherByte_spec b hw).1, Instr.byte] at hn
  · simp [hm]

namespace Machine

section
variable {i : Instr} {b : Byte} {n : Nibble} {r : Nat} {s t : State}

/-! ### What no FEED writes -/

/-- The fields that no rule of FEED writes: the binding, the fault state, the parameters and the inputs. -/
structure FeedFrame (s t : State) : Prop where
  cbBound : t.cbBound = s.cbBound
  fault : t.fault = s.fault
  params : t.params = s.params
  inputs : t.inputs = s.inputs

theorem digitRule_frame {p : Phase} (h : digitRule p n r s = .ok t) : FeedFrame s t := by
  cases p with
  | awaitLength => obtain ⟨-, rfl⟩ | ⟨-, rfl⟩ := lengthDigit_cases h <;> exact ⟨rfl, rfl, rfl, rfl⟩
  | awaitAddress => obtain ⟨-, rfl⟩ | ⟨-, rfl⟩ := addressDigit_cases h <;> exact ⟨rfl, rfl, rfl, rfl⟩
  | awaitType => obtain ⟨-, rfl⟩ | ⟨-, _, -, rfl⟩ := typeDigit_cases h <;> exact ⟨rfl, rfl, rfl, rfl⟩
  | awaitPayload =>
    obtain ⟨-, rfl⟩ | ⟨-, _, _, _, _, _, _, rfl, -⟩ := payloadDigit_cases h <;> exact ⟨rfl, rfl, rfl, rfl⟩
  | awaitChecksum => obtain ⟨-, rfl⟩ | ⟨-, rfl⟩ := checksumDigit_cases h <;> exact ⟨rfl, rfl, rfl, rfl⟩
  | awaitMark => cases h; exact ⟨rfl, rfl, rfl, rfl⟩
  | reserved6 => cases h; exact ⟨rfl, rfl, rfl, rfl⟩
  | reserved7 => cases h; exact ⟨rfl, rfl, rfl, rfl⟩

theorem feed_ok_frame (h : feed b s = .ok t) : FeedFrame s t := by
  obtain ⟨-, rfl⟩ | ⟨-, -, -, rfl⟩ | ⟨-, -, -, rfl⟩ | ⟨-, -, -, -, rfl⟩ | ⟨-, -, -, n, -, hrule⟩ := feed_ok_cases h
  · exact ⟨rfl, rfl, rfl, rfl⟩
  · exact ⟨rfl, rfl, rfl, rfl⟩
  · exact ⟨rfl, rfl, rfl, rfl⟩
  · split <;> exact ⟨rfl, rfl, rfl, rfl⟩
  · obtain ⟨hbound, hfault, hparams, hinputs⟩ := digitRule_frame hrule
    exact ⟨hbound, hfault, hparams, hinputs⟩

/-- No command writes the build parameters (R32). -/
theorem exec_params (h : exec i s = .next t) : t.params = s.params := by
  obtain ⟨-, ⟨_, -, rfl⟩ | ⟨_, -, rfl⟩ | ⟨_, -, rfl⟩ | ⟨-, hfeed | ⟨_, -, rfl⟩⟩⟩ := exec_next_cases h
  · rfl
  · rfl
  · rfl
  · exact (feed_ok_frame hfeed).params
  · rfl

/-! ### How a command moves within a record -/

/-- `t` has the registers of `s` that say where in a record the block is and what the record holds so far. -/
structure KeepsRecord (s t : State) : Prop where
  phase : t.phase = s.phase
  remainingDigits : t.remainingDigits = s.remainingDigits
  length : t.length = s.length
  loadOffset : t.loadOffset = s.loadOffset
  recType : t.recType = s.recType
  targetChecksum : t.targetChecksum = s.targetChecksum
  extensionBytePos : t.extensionBytePos = s.extensionBytePos
  recordByteIndex : t.recordByteIndex = s.recordByteIndex

/-- What a command with a next state does to the record: nothing, BEGIN, the start of a record, an invalid character
that uses up its digit slot (`Consume` only), or a digit rule. -/
inductive RecordMove (i : Instr) (s t : State) : Prop
  | keep (same : KeepsRecord s t)
  | begin (command : ∃ b, i = .begin b) (same : KeepsRecord (beginStream s) t)
  | start (feeds : i.isFeed = true) (char : i.byte = markChar) (phase : s.phase = .awaitMark)
      (same : KeepsRecord (startRecord s) t)
  | consume (policy : s.params.slotPolicy ≠ .retain) (digits : s.remainingDigits ≠ 0)
      (same : KeepsRecord s.takeDigit t)
  | digit (feeds : i.isFeed = true) (n : Nibble) (char : nibble i.byte = some n) (phase : s.phase.isDigit = true)
      (digits : s.remainingDigits ≠ 0)
      (rule : digitRule s.phase n (s.remainingDigits.toNat - 1) s.takeDigit = .ok t)

theorem exec_recordMove (h : exec i s = .next t) : RecordMove i s t := by
  obtain ⟨-, ⟨b, rfl, rfl⟩ | ⟨b, rfl, rfl⟩ | ⟨b, rfl, rfl⟩ | ⟨hf, hfeed | ⟨q, -, rfl⟩⟩⟩ := exec_next_cases h
  · exact .keep ⟨rfl, rfl, rfl, rfl, rfl, rfl, rfl, rfl⟩
  · exact .keep ⟨rfl, rfl, rfl, rfl, rfl, rfl, rfl, rfl⟩
  · exact .begin ⟨b, rfl⟩ ⟨rfl, rfl, rfl, rfl, rfl, rfl, rfl, rfl⟩
  · obtain ⟨-, rfl⟩ | ⟨-, hp, hb, rfl⟩ | ⟨-, -, -, rfl⟩ | ⟨-, -, hr, -, rfl⟩ | ⟨-, hp, hr, n, hn, hrule⟩ :=
      feed_ok_cases hfeed
    · exact .keep ⟨rfl, rfl, rfl, rfl, rfl, rfl, rfl, rfl⟩
    · exact .start hf hb hp ⟨rfl, rfl, rfl, rfl, rfl, rfl, rfl, rfl⟩
    · exact .keep ⟨rfl, rfl, rfl, rfl, rfl, rfl, rfl, rfl⟩
    · split
      case isTrue => exact .keep ⟨rfl, rfl, rfl, rfl, rfl, rfl, rfl, rfl⟩
      case isFalse hpol => exact .consume hpol hr ⟨rfl, rfl, rfl, rfl, rfl, rfl, rfl, rfl⟩
    · exact .digit hf n hn hp hr hrule
  · exact .keep ⟨rfl, rfl, rfl, rfl, rfl, rfl, rfl, rfl⟩

/-- The move of a field's last digit to the next phase, with the digits that phase requires (R85). -/
inductive FieldMove (s t : State) : Prop
  | length (source : s.phase = .awaitLength) (target : t.phase = .awaitAddress) (digits : t.remainingDigits = 4)
  | address (source : s.phase = .awaitAddress) (target : t.phase = .awaitType) (digits : t.remainingDigits = 2)
  | typePayload (source : s.phase = .awaitType) (nonempty : s.length ≠ 0) (target : t.phase = .awaitPayload)
      (length : t.length = s.length) (digits : t.remainingDigits = payloadDigits s.length)
  | typeChecksum (source : s.phase = .awaitType) (empty : s.length = 0) (target : t.phase = .awaitChecksum)
      (digits : t.remainingDigits = 2)
  | payload (source : s.phase = .awaitPayload) (target : t.phase = .awaitChecksum) (digits : t.remainingDigits = 2)
  | checksum (source : s.phase = .awaitChecksum) (target : t.phase = .awaitMark)

/-- A digit that is not the last of its field keeps the phase and the count, and outside AwaitLength the length; the
last one moves to the next phase. -/
theorem digitRule_moves (hd : s.phase.isDigit = true) (h : digitRule s.phase n r s = .ok t) :
    (r ≠ 0 ∧ t.phase = s.phase ∧ t.remainingDigits = s.remainingDigits ∧
      (s.phase ≠ .awaitLength → t.length = s.length)) ∨
    (r = 0 ∧ FieldMove s t) := by
  cases hp : s.phase with
  | awaitLength =>
    rw [hp] at h
    obtain ⟨hr, rfl⟩ | ⟨hr, rfl⟩ := lengthDigit_cases h
    · exact .inl ⟨hr, hp, rfl, fun hne => absurd rfl hne⟩
    · exact .inr ⟨hr, .length hp rfl rfl⟩
  | awaitAddress =>
    rw [hp] at h
    obtain ⟨hr, rfl⟩ | ⟨hr, rfl⟩ := addressDigit_cases h
    · exact .inl ⟨hr, hp, rfl, fun _ => rfl⟩
    · exact .inr ⟨hr, .address hp rfl rfl⟩
  | awaitType =>
    rw [hp] at h
    obtain ⟨hr, rfl⟩ | ⟨hr, _, -, rfl⟩ := typeDigit_cases h
    · exact .inl ⟨hr, hp, rfl, fun _ => rfl⟩
    · by_cases hl : s.length = 0
      · exact .inr ⟨hr, .typeChecksum hp hl (if_neg (by simp [hl])) (if_neg (by simp [hl]))⟩
      · exact .inr ⟨hr, .typePayload hp hl (if_pos hl) rfl (if_pos hl)⟩
  | awaitPayload =>
    rw [hp] at h
    obtain ⟨hr, rfl⟩ | ⟨-, _, _, _, _, _, _, rfl, -⟩ := payloadDigit_cases h
    · exact .inl ⟨by omega, hp, rfl, fun _ => rfl⟩
    · by_cases hr : r = 0
      · exact .inr ⟨hr, .payload hp (if_pos hr) (if_pos hr)⟩
      · exact .inl ⟨hr, (if_neg hr).trans hp, if_neg hr, fun _ => rfl⟩
  | awaitChecksum =>
    rw [hp] at h
    obtain ⟨hr, rfl⟩ | ⟨hr, rfl⟩ := checksumDigit_cases h
    · exact .inl ⟨hr, hp, rfl, fun _ => rfl⟩
    · exact .inr ⟨hr, .checksum hp rfl⟩
  | awaitMark => simp [hp, Phase.isDigit] at hd
  | reserved6 => simp [hp, Phase.isDigit] at hd
  | reserved7 => simp [hp, Phase.isDigit] at hd

end

/-- Settles O44: INIT binds, and every other command keeps the binding. -/
theorem sinkBindingWriters : Obligations.SinkBindingWriters := by
  intro i s t h
  have kept (hne : ∀ b, i ≠ .init b) (hb : t.cbBound = s.cbBound) :
      t.cbBound = true ↔ s.cbBound = true ∨ ∃ b, i = .init b := by simp [hne, hb]
  obtain ⟨-, ⟨b, rfl, rfl⟩ | ⟨b, rfl, rfl⟩ | ⟨b, rfl, rfl⟩ | ⟨hf, hfeed⟩⟩ := exec_next_cases h
  · exact kept nofun rfl
  · simp
  · exact kept nofun rfl
  · refine kept (by rintro b rfl; cases hf) ?_
    obtain hok | ⟨q, -, rfl⟩ := hfeed
    · exact (feed_ok_frame hok).cbBound
    · rfl

/-- Settles O45: no command and no reset writes the parameters. -/
theorem parametersNeverWritten : Obligations.ParametersNeverWritten := by
  intro s t h
  obtain ⟨-, rfl⟩ | ⟨rest, -, rfl⟩ | ⟨w, rest, i, -, -, hexec⟩ := step_next_cases h
  · rfl
  · rfl
  · exact (exec_params hexec :)

/-- Settles O46, by the record's moves and the move of a last digit. -/
theorem phaseCycle : Obligations.PhaseCycle := by
  intro i s t hw h
  cases exec_recordMove h with
  | keep same => exact .inl same.phase
  | begin command same => exact .inr (.inl ⟨command, same.phase⟩)
  | start feeds char phase same =>
    exact .inr (.inr (.inl ⟨Instr.eq_feedMark_of_byte hw feeds char, phase, same.phase⟩))
  | consume _ _ same => exact .inl same.phase
  | digit feeds n char phase digits rule =>
    obtain ⟨-, hkept, -⟩ | ⟨hr, hmove⟩ := digitRule_moves (s := s.takeDigit) phase rule
    · exact .inl hkept
    · have hone : s.remainingDigits = 1 := by bv_omega
      refine .inr (.inr (.inr ⟨Instr.hexDigit_isSome_of_nibble hw feeds char, hone, ?_⟩))
      cases hmove with
      | length source target _ => exact .inl ⟨source, target⟩
      | address source target _ => exact .inr (.inl ⟨source, target⟩)
      | typePayload source nonempty target _ _ => exact .inr (.inr (.inl ⟨source, nonempty, target⟩))
      | typeChecksum source empty target _ => exact .inr (.inr (.inr (.inl ⟨source, empty, target⟩)))
      | payload source target _ => exact .inr (.inr (.inr (.inr (.inl ⟨source, target⟩))))
      | checksum source target => exact .inr (.inr (.inr (.inr (.inr ⟨source, target⟩))))

end Machine

end Sys2Proof
end

section
/-! The invariants of 10_state.md R34 and R35: one reading of each per phase, and why every step keeps them. -/

namespace Sys2Proof.Machine

section
variable {P : State → Prop} {i : Instr} {n : Nibble} {r : Nat} {s t : State}

/-- A property that taking an input, the reset and every command keep is kept by every step. -/
theorem step_keeps (hinputs : ∀ s rest, P s → P { s with inputs := rest })
    (hreset : ∀ s, P s → P (powerOnReset s))
    (hexec : ∀ i s t, P s → exec i s = .next t → P t) (hs : P s) (h : step s = .next t) : P t := by
  obtain ⟨-, rfl⟩ | ⟨rest, -, rfl⟩ | ⟨w, rest, i, -, -, hcommand⟩ := step_next_cases h
  · exact hs
  · exact hreset _ (hinputs s rest hs)
  · exact hexec i _ t (hinputs s rest hs) hcommand

/-! ### The digits of a field -/

theorem takeDigit_remainingDigits_toNat (h : s.remainingDigits ≠ 0) :
    s.takeDigit.remainingDigits.toNat = s.remainingDigits.toNat - 1 := takeDigit_slot h

theorem takeDigit_remainingDigits_ne_zero (h : s.remainingDigits.toNat - 1 ≠ 0) :
    s.takeDigit.remainingDigits ≠ 0 := by
  rw [takeDigit_remainingDigits]
  bv_omega

/-- The digits of a whole payload, two per byte, fit the counter (R149). -/
theorem payloadDigits_toNat (length : Byte) : (payloadDigits length).toNat = 2 * length.toNat := by
  unfold payloadDigits
  bv_omega

/-- A digit leaves the slots below its own as they were (R122). -/
theorem insertDigit_mod_pow {w : Nat} (f : BitVec w) (n : Nibble) (p : Nat) :
    (insertDigit f n p).toNat % 16 ^ p = f.toNat % 16 ^ p := by
  have hpow : 16 ^ p = 2 ^ (4 * p) := by rw [pow_mul]; norm_num
  rw [hpow]
  refine Nat.eq_of_testBit_eq fun k => ?_
  simp only [Nat.testBit_mod_two_pow]
  by_cases hk : k < 4 * p
  · have hbit : (insertDigit f n p).getLsbD k = f.getLsbD k := by
      by_cases hw : k < w
      · simp [insertDigit, hk, hw]
      · rw [BitVec.getLsbD_of_ge _ _ (by omega), BitVec.getLsbD_of_ge _ _ (by omega)]
    simpa [hk, BitVec.getLsbD] using hbit
  · simp [hk]

/-- Filling the highest open slot of a field leaves the slots still open at 0 (part 5 of R34). -/
theorem insertDigit_openSlots {w : Nat} {f : BitVec w} (hr : s.remainingDigits ≠ 0)
    (hf : f.toNat % 16 ^ s.remainingDigits.toNat = 0) :
    (insertDigit f n (s.remainingDigits.toNat - 1)).toNat % 16 ^ s.takeDigit.remainingDigits.toNat = 0 := by
  rw [takeDigit_remainingDigits_toNat hr, insertDigit_mod_pow]
  have hdvd : 16 ^ (s.remainingDigits.toNat - 1) ∣ 16 ^ s.remainingDigits.toNat := pow_dvd_pow 16 (Nat.sub_le _ 1)
  exact Nat.mod_eq_zero_of_dvd (hdvd.trans (Nat.dvd_of_mod_eq_zero hf))

/-! ### Legal states -/

/-- The values of the extension tracker that R35 allows. -/
def ExtensionSlotLegal (k : BitVec 3) : Prop := k = 0 ∨ k = 1 ∨ k = 2 ∨ k = 3 ∨ k = 7

/-- The most digits a phase can still require (part 4 of R34, R35). -/
def digitBound (length : Byte) : Phase → Nat
  | .awaitLength => 2
  | .awaitAddress => 4
  | .awaitType => 2
  | .awaitPayload => 2 * length.toNat
  | .awaitChecksum => 2
  | .awaitMark => 0
  | .reserved6 => 0
  | .reserved7 => 0

/-- A legal state, with the counter bounds of the digit phases said at once. -/
theorem legalState_iff :
    LegalState s ↔ (s.phase = .awaitMark ∨ s.phase.isDigit = true) ∧ ExtensionSlotLegal s.extensionBytePos ∧
      (s.phase.isDigit = true → s.remainingDigits.toNat ≤ digitBound s.length s.phase) ∧
      (s.phase = .awaitPayload → s.length ≠ 0) := by
  constructor
  · rintro ⟨hphase, hpos, hlength, haddress, htype, hpayload, hchecksum⟩
    refine ⟨?_, hpos, ?_, fun hp => (hpayload hp).1⟩ <;>
      cases hp : s.phase <;> simp_all [Phase.isDigit, digitBound]
  · rintro ⟨hphase, hpos, hbound, hlength⟩
    refine ⟨?_, hpos, ?_, ?_, ?_, ?_, ?_⟩ <;>
      cases hp : s.phase <;> simp_all [Phase.isDigit, digitBound]

theorem LegalState.of_keepsRecord (hs : LegalState s) (h : KeepsRecord s t) : LegalState t := by
  rw [legalState_iff] at hs ⊢
  rw [h.phase, h.extensionBytePos, h.remainingDigits, h.length]
  exact hs

theorem LegalState.beginStream (hs : LegalState s) : LegalState (beginStream s) :=
  legalState_iff.2 ⟨.inl rfl, hs.extensionPos, nofun, nofun⟩

theorem LegalState.startRecord (hs : LegalState s) : LegalState (startRecord s) :=
  legalState_iff.2 ⟨.inr rfl, hs.extensionPos, fun _ => Nat.le_refl 2, nofun⟩

theorem LegalState.takeDigit (hs : LegalState s) (hr : s.remainingDigits ≠ 0) : LegalState s.takeDigit := by
  obtain ⟨hphase, hpos, hbound, hlength⟩ := legalState_iff.1 hs
  refine legalState_iff.2 ⟨hphase, hpos, fun hd => ?_, hlength⟩
  rw [takeDigit_remainingDigits_toNat hr]
  exact (Nat.sub_le _ 1).trans (hbound hd)

theorem legalState_powerOnReset (s : State) : LegalState (powerOnReset s) :=
  legalState_iff.2 ⟨.inl rfl, .inl rfl, nofun, nofun⟩

/-- The tracker counts from 3 down to 0 and then rests at 7 (R170, R173). -/
theorem extPlace_slotLegal (hs : ExtensionSlotLegal s.extensionBytePos) :
    ExtensionSlotLegal (extPlace s).extensionBytePos := by
  simp only [extPlace_eq]
  generalize s.extensionBytePos = k at hs
  unfold ExtensionSlotLegal at *
  revert k
  decide

theorem digitRule_slotLegal (hs : ExtensionSlotLegal s.extensionBytePos) {p : Phase}
    (h : digitRule p n r s = .ok t) : ExtensionSlotLegal t.extensionBytePos := by
  cases p with
  | awaitLength => obtain ⟨-, rfl⟩ | ⟨-, rfl⟩ := lengthDigit_cases h <;> exact hs
  | awaitAddress => obtain ⟨-, rfl⟩ | ⟨-, rfl⟩ := addressDigit_cases h <;> exact hs
  | awaitType =>
    obtain ⟨-, rfl⟩ | ⟨-, tt, -, rfl⟩ := typeDigit_cases h
    · exact hs
    · dsimp only
      split
      · split
        · exact .inr (.inl rfl)
        · exact .inr (.inr (.inr (.inl rfl)))
      · exact hs
  | awaitPayload =>
    obtain ⟨-, rfl⟩ | ⟨-, _, pos, _, _, _, _, rfl, hpos⟩ := payloadDigit_cases h
    · exact hs
    · obtain ⟨-, -, -, -, -, -, rfl⟩ | ⟨-, -, -, -, -, -, rfl⟩ | ⟨-, -, -, -, -, -, -, -, rfl⟩ := hpos
      · exact hs
      · exact extPlace_slotLegal (s := { s with pendingByte := insertDigit s.pendingByte n 0 }) hs
      · exact hs
  | awaitChecksum => obtain ⟨-, rfl⟩ | ⟨-, rfl⟩ := checksumDigit_cases h <;> exact hs
  | awaitMark => cases h; exact hs
  | reserved6 => cases h; exact hs
  | reserved7 => cases h; exact hs

/-- The last digit of a field requires as many digits as the next phase allows. -/
theorem FieldMove.legalState (h : FieldMove s t) (hpos : ExtensionSlotLegal t.extensionBytePos) : LegalState t := by
  rw [legalState_iff]
  cases h with
  | length _ target digits => simp [target, digits, hpos, Phase.isDigit, digitBound]
  | address _ target digits => simp [target, digits, hpos, Phase.isDigit, digitBound]
  | typePayload _ nonempty target length digits =>
    simpa [target, digits, length, hpos, Phase.isDigit, digitBound, payloadDigits_toNat] using nonempty
  | typeChecksum _ _ target digits => simp [target, digits, hpos, Phase.isDigit, digitBound]
  | payload _ target digits => simp [target, digits, hpos, Phase.isDigit, digitBound]
  | checksum _ target => simp [target, hpos, Phase.isDigit]

theorem digitRule_keeps_legalState (hs : LegalState s) (hd : s.phase.isDigit = true)
    (h : digitRule s.phase n r s = .ok t) : LegalState t := by
  have hpos := digitRule_slotLegal hs.extensionPos h
  obtain ⟨-, hphase, hdigits, hlength⟩ | ⟨-, hmove⟩ := digitRule_moves hd h
  · obtain ⟨hp, -, hbound, hne⟩ := legalState_iff.1 hs
    rw [legalState_iff, hphase, hdigits]
    by_cases hl : s.phase = .awaitLength
    · exact ⟨hp, hpos, fun _ => by simpa [hl, digitBound] using hs.lengthCount hl, by simp [hl]⟩
    · rw [hlength hl]
      exact ⟨hp, hpos, hbound, hne⟩
  · exact hmove.legalState hpos

theorem exec_keeps_legalState (hs : LegalState s) (h : exec i s = .next t) : LegalState t := by
  cases exec_recordMove h with
  | keep same => exact hs.of_keepsRecord same
  | begin _ same => exact hs.beginStream.of_keepsRecord same
  | start _ _ _ same => exact hs.startRecord.of_keepsRecord same
  | consume _ digits same => exact (hs.takeDigit digits).of_keepsRecord same
  | digit _ n _ phase digits rule => exact digitRule_keeps_legalState (hs.takeDigit digits) phase rule

/-! ### The invariant of R34, phase by phase -/

theorem retainInv_awaitMark (hp : s.phase = .awaitMark) : RetainInv s ↔ LegalState s := by
  refine ⟨fun h => h.legal, fun h => ?_⟩
  constructor <;> simp [hp, h, Phase.isDigit]

theorem retainInv_awaitLength (hp : s.phase = .awaitLength) :
    RetainInv s ↔ LegalState s ∧ s.remainingDigits ≠ 0 ∧ s.recordByteIndex = 0 ∧
      s.length.toNat % 16 ^ s.remainingDigits.toNat = 0 ∧ s.loadOffset = 0 ∧ s.recType = 0 ∧
      s.targetChecksum = 0 := by
  constructor
  · exact fun h => ⟨h.legal, h.counting (by rw [hp]; rfl), h.headerIndex (.inl hp), h.lengthSlots hp,
      h.laterAddress hp, h.laterType (.inl hp), h.laterChecksum (.inl hp)⟩
  · rintro ⟨hlegal, hcount, hindex, hslots, hoffset, htype, hchecksum⟩
    constructor <;> simp_all

theorem retainInv_awaitAddress (hp : s.phase = .awaitAddress) :
    RetainInv s ↔ LegalState s ∧ s.remainingDigits ≠ 0 ∧ s.recordByteIndex = 0 ∧
      s.loadOffset.toNat % 16 ^ s.remainingDigits.toNat = 0 ∧ s.recType = 0 ∧ s.targetChecksum = 0 := by
  constructor
  · exact fun h => ⟨h.legal, h.counting (by rw [hp]; rfl), h.headerIndex (.inr (.inl hp)), h.addressSlots hp,
      h.laterType (.inr hp), h.laterChecksum (.inr (.inl hp))⟩
  · rintro ⟨hlegal, hcount, hindex, hslots, htype, hchecksum⟩
    constructor <;> simp_all

theorem retainInv_awaitType (hp : s.phase = .awaitType) :
    RetainInv s ↔ LegalState s ∧ s.remainingDigits ≠ 0 ∧ s.recordByteIndex = 0 ∧
      s.recType.toNat % 16 ^ s.remainingDigits.toNat = 0 ∧ s.targetChecksum = 0 := by
  constructor
  · exact fun h => ⟨h.legal, h.counting (by rw [hp]; rfl), h.headerIndex (.inr (.inr hp)), h.typeSlots hp,
      h.laterChecksum (.inr (.inr (.inl hp)))⟩
  · rintro ⟨hlegal, hcount, hindex, hslots, hchecksum⟩
    constructor <;> simp_all

theorem retainInv_awaitPayload (hp : s.phase = .awaitPayload) :
    RetainInv s ↔ LegalState s ∧ s.remainingDigits ≠ 0 ∧
      (s.recType = 0x00 → s.recordByteIndex.toNat = (2 * s.length.toNat - s.remainingDigits.toNat) / 2) ∧
      s.targetChecksum = 0 := by
  constructor
  · exact fun h => ⟨h.legal, h.counting (by rw [hp]; rfl), h.payloadIndex hp,
      h.laterChecksum (.inr (.inr (.inr hp)))⟩
  · rintro ⟨hlegal, hcount, hindex, hchecksum⟩
    constructor <;> simp_all

theorem retainInv_awaitChecksum (hp : s.phase = .awaitChecksum) :
    RetainInv s ↔ LegalState s ∧ s.remainingDigits ≠ 0 ∧
      s.targetChecksum.toNat % 16 ^ s.remainingDigits.toNat = 0 := by
  constructor
  · exact fun h => ⟨h.legal, h.counting (by rw [hp]; rfl), h.checksumSlots hp⟩
  · rintro ⟨hlegal, hcount, hslots⟩
    constructor <;> simp_all

theorem RetainInv.of_keepsRecord (hs : RetainInv s) (h : KeepsRecord s t) : RetainInv t := by
  have hlegal := hs.legal.of_keepsRecord h
  obtain ⟨hphase, hdigits, hlength, hoffset, htype, hchecksum, -, hindex⟩ := h
  obtain ⟨-, h1, h2, h3, h4, h5, h6, h7, h8, h9, h10⟩ := hs
  refine ⟨hlegal, ?_, ?_, ?_, ?_, ?_, ?_, ?_, ?_, ?_, ?_⟩ <;>
    simp only [hphase, hdigits, hlength, hoffset, htype, hchecksum, hindex] <;> assumption

/-! ### Every digit keeps the invariant of R34 -/

section
variable (hs : RetainInv s) (hlegal : LegalState t)
include hs hlegal

theorem lengthDigit_keeps_retainInv (hp : s.phase = .awaitLength)
    (h : lengthDigit n (s.remainingDigits.toNat - 1) s.takeDigit = .ok t) : RetainInv t := by
  obtain ⟨-, hcount, hindex, hslots, hoffset, htype, hchecksum⟩ := (retainInv_awaitLength hp).1 hs
  obtain ⟨hr, rfl⟩ | ⟨-, rfl⟩ := lengthDigit_cases h
  · exact (retainInv_awaitLength (by exact hp)).2 ⟨hlegal, takeDigit_remainingDigits_ne_zero hr, hindex,
      insertDigit_openSlots hcount hslots, hoffset, htype, hchecksum⟩
  · exact (retainInv_awaitAddress rfl).2 ⟨hlegal, by simp, hindex, by simp [hoffset], htype, hchecksum⟩

theorem addressDigit_keeps_retainInv (hp : s.phase = .awaitAddress)
    (h : addressDigit n (s.remainingDigits.toNat - 1) s.takeDigit = .ok t) : RetainInv t := by
  obtain ⟨-, hcount, hindex, hslots, htype, hchecksum⟩ := (retainInv_awaitAddress hp).1 hs
  obtain ⟨hr, rfl⟩ | ⟨-, rfl⟩ := addressDigit_cases h
  · exact (retainInv_awaitAddress (by exact hp)).2 ⟨hlegal, takeDigit_remainingDigits_ne_zero hr, hindex,
      insertDigit_openSlots hcount hslots, htype, hchecksum⟩
  · exact (retainInv_awaitType rfl).2 ⟨hlegal, by simp, hindex, by simp [htype], hchecksum⟩

theorem typeDigit_keeps_retainInv (hp : s.phase = .awaitType)
    (h : typeDigit n (s.remainingDigits.toNat - 1) s.takeDigit = .ok t) : RetainInv t := by
  obtain ⟨-, hcount, hindex, hslots, hchecksum⟩ := (retainInv_awaitType hp).1 hs
  obtain ⟨hr, rfl⟩ | ⟨-, _, -, ht⟩ := typeDigit_cases h
  · exact (retainInv_awaitType (by exact hp)).2 ⟨hlegal, takeDigit_remainingDigits_ne_zero hr, hindex,
      insertDigit_openSlots hcount hslots, hchecksum⟩
  · have hsum : t.targetChecksum = 0 := by rw [ht]; exact hchecksum
    by_cases hl : s.length ≠ 0
    · have hphase : t.phase = .awaitPayload := by rw [ht]; exact if_pos hl
      have hdigits : t.remainingDigits = payloadDigits s.length := by rw [ht]; exact if_pos hl
      have hlength : t.length = s.length := by rw [ht]; rfl
      have hfirst : t.recordByteIndex = 0 := by rw [ht]; exact hindex
      have htotal := payloadDigits_toNat s.length
      refine (retainInv_awaitPayload hphase).2 ⟨hlegal, ?_, fun _ => ?_, hsum⟩
      · bv_omega
      · simp [hfirst, hlength, hdigits, htotal]
    · have hphase : t.phase = .awaitChecksum := by rw [ht]; exact if_neg hl
      have hdigits : t.remainingDigits = 2 := by rw [ht]; exact if_neg hl
      exact (retainInv_awaitChecksum hphase).2 ⟨hlegal, by simp [hdigits], by simp [hsum]⟩

theorem payloadDigit_keeps_retainInv (hp : s.phase = .awaitPayload)
    (h : payloadDigit n (s.remainingDigits.toNat - 1) s.takeDigit = .ok t) : RetainInv t := by
  obtain ⟨hlegalBefore, hcount, hindex, hchecksum⟩ := (retainInv_awaitPayload hp).1 hs
  have hbound := (hlegalBefore.payloadCount hp).2
  have hdigits := takeDigit_remainingDigits_toNat hcount
  obtain ⟨hodd, rfl⟩ | ⟨heven, _, _, idx, _, _, _, rfl, hkind⟩ := payloadDigit_cases h
  · refine (retainInv_awaitPayload (by exact hp)).2
      ⟨hlegal, takeDigit_remainingDigits_ne_zero (by omega), fun htype => ?_, hchecksum⟩
    have hbefore := hindex htype
    dsimp only [takeDigit_length, takeDigit_recordByteIndex]
    omega
  · by_cases hr : s.remainingDigits.toNat - 1 = 0
    · exact (retainInv_awaitChecksum (if_pos hr)).2 ⟨hlegal, by simp [hr], by simp [hchecksum]⟩
    · refine (retainInv_awaitPayload ((if_neg hr).trans hp)).2
        ⟨hlegal, by simpa [hr] using takeDigit_remainingDigits_ne_zero hr, fun htype => ?_, hchecksum⟩
      have hbefore := hindex htype
      obtain ⟨-, -, -, -, rfl, -⟩ | ⟨hext | hext, -⟩ | ⟨hother, -⟩ := hkind
      · simp only [takeDigit_length, takeDigit_recordByteIndex, if_neg hr, hdigits]
        bv_omega
      · exact absurd (htype.symm.trans hext) (by decide)
      · exact absurd (htype.symm.trans hext) (by decide)
      · exact absurd htype hother

theorem checksumDigit_keeps_retainInv (hp : s.phase = .awaitChecksum)
    (h : checksumDigit n (s.remainingDigits.toNat - 1) s.takeDigit = .ok t) : RetainInv t := by
  obtain ⟨-, hcount, hslots⟩ := (retainInv_awaitChecksum hp).1 hs
  obtain ⟨hr, rfl⟩ | ⟨-, rfl⟩ := checksumDigit_cases h
  · exact (retainInv_awaitChecksum (by exact hp)).2 ⟨hlegal, takeDigit_remainingDigits_ne_zero hr,
      insertDigit_openSlots hcount hslots⟩
  · exact (retainInv_awaitMark rfl).2 hlegal

end

theorem digitRule_keeps_retainInv (hs : RetainInv s) (hd : s.phase.isDigit = true) (hr : s.remainingDigits ≠ 0)
    (h : digitRule s.phase n (s.remainingDigits.toNat - 1) s.takeDigit = .ok t) : RetainInv t := by
  have hlegal : LegalState t := digitRule_keeps_legalState (hs.legal.takeDigit hr) hd h
  cases hp : s.phase with
  | awaitLength => rw [hp] at h; exact lengthDigit_keeps_retainInv hs hlegal hp h
  | awaitAddress => rw [hp] at h; exact addressDigit_keeps_retainInv hs hlegal hp h
  | awaitType => rw [hp] at h; exact typeDigit_keeps_retainInv hs hlegal hp h
  | awaitPayload => rw [hp] at h; exact payloadDigit_keeps_retainInv hs hlegal hp h
  | awaitChecksum => rw [hp] at h; exact checksumDigit_keeps_retainInv hs hlegal hp h
  | awaitMark => simp [hp, Phase.isDigit] at hd
  | reserved6 => simp [hp, Phase.isDigit] at hd
  | reserved7 => simp [hp, Phase.isDigit] at hd

/-! ### Every step keeps the invariant of R34 -/

theorem RetainInv.beginStream (hs : RetainInv s) : RetainInv (beginStream s) :=
  (retainInv_awaitMark rfl).2 hs.legal.beginStream

theorem RetainInv.startRecord (hs : RetainInv s) : RetainInv (startRecord s) :=
  (retainInv_awaitLength rfl).2 ⟨hs.legal.startRecord, by simp, rfl, by simp, rfl, rfl, rfl⟩

theorem retainInv_powerOnReset (s : State) : RetainInv (powerOnReset s) :=
  (retainInv_awaitMark rfl).2 (legalState_powerOnReset s)

theorem exec_keeps_retainInv (hpol : s.params.slotPolicy = .retain) (hs : RetainInv s)
    (h : exec i s = .next t) : RetainInv t := by
  cases exec_recordMove h with
  | keep same => exact hs.of_keepsRecord same
  | begin _ same => exact hs.beginStream.of_keepsRecord same
  | start _ _ _ same => exact hs.startRecord.of_keepsRecord same
  | consume policy _ _ => exact absurd hpol policy
  | digit _ n _ phase digits rule => exact digitRule_keeps_retainInv hs phase digits rule

end

/-- Settles O49: AwaitMark asks only for a legal state. -/
theorem resetMeetsRetainInv : Obligations.ResetMeetsRetainInv :=
  ⟨retainInv_powerOnReset State.reset, retainInv_powerOnReset⟩

/-- Settles O47: taking an input, the reset and every command keep a legal state. -/
theorem stepKeepsLegalState : Obligations.StepKeepsLegalState := by
  intro s t hs h
  refine step_keeps (P := LegalState) ?_ ?_ ?_ hs h
  · exact fun s rest hs => hs.of_keepsRecord ⟨rfl, rfl, rfl, rfl, rfl, rfl, rfl, rfl⟩
  · exact fun s _ => legalState_powerOnReset s
  · exact fun i s t hs hexec => exec_keeps_legalState hs hexec

/-- Settles O48: taking an input, the reset and every command keep the invariant together with the policy. -/
theorem stepKeepsRetainInv : Obligations.StepKeepsRetainInv := by
  intro s t hpol hs h
  have hboth : t.params.slotPolicy = .retain ∧ RetainInv t := by
    refine step_keeps (P := fun s => s.params.slotPolicy = .retain ∧ RetainInv s) ?_ ?_ ?_ ⟨hpol, hs⟩ h
    · exact fun s rest ⟨hpol, hs⟩ => ⟨hpol, hs.of_keepsRecord ⟨rfl, rfl, rfl, rfl, rfl, rfl, rfl, rfl⟩⟩
    · exact fun s ⟨hpol, _⟩ => ⟨hpol, retainInv_powerOnReset s⟩
    · exact fun i s t ⟨hpol, hs⟩ hexec =>
        ⟨(congrArg Params.slotPolicy (exec_params hexec)).trans hpol, exec_keeps_retainInv hpol hs hexec⟩
  exact hboth.2

end Sys2Proof.Machine
end

section
/-! What a command asks of the sink, branch by branch of FEED, and the statements about the sink's requests and its
address space that follow. -/

namespace Sys2Proof

/-- A command that feeds a character with a nibble is a hex-digit command of that nibble (R121). -/
theorem Instr.hexDigit_of_nibble {i : Instr} {n : Nibble} (hw : i.wf = true) (hf : i.isFeed = true)
    (hn : Machine.nibble i.byte = some n) : i.hexDigit = some n := by
  obtain ⟨m, hm⟩ := Option.isSome_iff_exists.1 (Instr.hexDigit_isSome_of_nibble hw hf hn)
  rw [hm, ← (Instr.hexDigit_byte hm).2.1, hn]

namespace Machine

section
variable {i : Instr} {n : Nibble} {r : Nat} {s t : State}

/-! ### When a command has a request -/

theorem completesByte_iff : completesByte i s = true ↔
    i.hexDigit.isSome = true ∧ s.phase = .awaitPayload ∧ s.remainingDigits ≠ 0 ∧
      (s.remainingDigits.toNat - 1) % 2 = 0 := by
  simp [completesByte, and_assoc]

theorem requestOf_eq_some (hn : i.hexDigit = some n) (hc : completesByte i s = true) (htype : s.recType = 0x00)
    (hbound : s.cbBound = true) : requestOf i s = some ⟨s.dataAddress, insertDigit s.pendingByte n 0⟩ := by
  simp [requestOf, hn, hc, htype, hbound]

theorem requestOf_eq_none (h : completesByte i s = true → s.recType = 0x00 → s.cbBound = false) :
    requestOf i s = none := by
  unfold requestOf
  cases i.hexDigit with
  | none => rfl
  | some n => exact if_neg fun ⟨hc, htype, hbound⟩ => absurd hbound (by simp [h hc htype])

theorem requestOf_of_phase_ne (hp : s.phase ≠ .awaitPayload) : requestOf i s = none :=
  requestOf_eq_none fun hc _ => absurd (completesByte_iff.1 hc).2.1 hp

theorem requestOf_of_hexDigit_eq_none (h : i.hexDigit = none) : requestOf i s = none :=
  requestOf_eq_none fun hc _ => absurd (completesByte_iff.1 hc).1 (by simp [h])

/-- A command that faults has no request: on the count 0 and in a reserved phase no byte is completed, and a completed
byte of a data record faults only without a sink (R216). -/
theorem requestOf_of_feed_fault {q : FaultReason} (h : feed i.byte s = .error (.fault q)) :
    requestOf i s = none := by
  obtain ⟨-, ⟨-, hzero, -⟩ | ⟨hp, -⟩ | ⟨-, -, n, -, hrule⟩⟩ := feed_fault_cases h
  · exact requestOf_eq_none fun hc _ => absurd hzero (completesByte_iff.1 hc).2.2.1
  · exact requestOf_of_phase_ne (by obtain hp | hp := hp <;> simp [hp])
  · obtain ⟨-, -, -, hunbound, -⟩ := digitRule_fault_cases hrule
    exact requestOf_eq_none fun _ _ => hunbound

/-! ### What a command adds to the list of requests -/

/-- Only a payload digit sends a request. -/
theorem digitRule_sinkLog {p : Phase} (hp : p ≠ .awaitPayload) (h : digitRule p n r s = .ok t) :
    t.sinkLog = s.sinkLog := by
  cases p with
  | awaitLength => obtain ⟨-, rfl⟩ | ⟨-, rfl⟩ := lengthDigit_cases h <;> rfl
  | awaitAddress => obtain ⟨-, rfl⟩ | ⟨-, rfl⟩ := addressDigit_cases h <;> rfl
  | awaitType => obtain ⟨-, rfl⟩ | ⟨-, _, -, rfl⟩ := typeDigit_cases h <;> rfl
  | awaitPayload => exact absurd rfl hp
  | awaitChecksum => obtain ⟨-, rfl⟩ | ⟨-, rfl⟩ := checksumDigit_cases h <;> rfl
  | awaitMark => cases h; rfl
  | reserved6 => cases h; rfl
  | reserved7 => cases h; rfl

/-- A payload digit sends the command's request: the second digit of a byte of a data record does, at the address of
the state before it, and no other digit does. -/
theorem payloadDigit_sinkLog (hn : i.hexDigit = some n) (hp : s.phase = .awaitPayload) (hr : s.remainingDigits ≠ 0)
    (h : payloadDigit n (s.remainingDigits.toNat - 1) s.takeDigit = .ok t) :
    t.sinkLog = s.sinkLog ++ (requestOf i s).toList := by
  obtain ⟨hodd, rfl⟩ | ⟨heven, _, _, _, log, _, _, rfl, hkind⟩ := payloadDigit_cases h
  · have hnone : requestOf i s = none :=
      requestOf_eq_none fun hc _ => absurd (completesByte_iff.1 hc).2.2.2 (by omega)
    simp [hnone]
  · obtain ⟨htype, hbound, -, rfl, -⟩ | ⟨htype, -, -, rfl, -⟩ | ⟨htype, -, -, -, -, rfl, -⟩ := hkind
    · have hc : completesByte i s = true := completesByte_iff.2 ⟨by simp [hn], hp, hr, heven⟩
      rw [requestOf_eq_some hn hc htype hbound]
      rfl
    · have hnone : requestOf i s = none :=
        requestOf_eq_none fun _ h0 => by
          obtain hext | hext := htype <;> exact absurd (h0.symm.trans hext) (by decide)
      simp [hnone]
    · have hnone : requestOf i s = none := requestOf_eq_none fun _ h0 => absurd h0 htype
      simp [hnone]

/-- A FEED without a fault sends the command's request and no other. -/
theorem feed_ok_sinkLog (hw : i.wf = true) (hf : i.isFeed = true) (h : feed i.byte s = .ok t) :
    t.sinkLog = s.sinkLog ++ (requestOf i s).toList := by
  obtain ⟨hl, rfl⟩ | ⟨-, hp, -, rfl⟩ | ⟨-, hp, -, rfl⟩ | ⟨-, -, -, hn, rfl⟩ | ⟨-, -, hr, n, hn, hrule⟩ :=
    feed_ok_cases h
  · have hdigit : i.hexDigit = none := Option.eq_none_iff_forall_ne_some.2 fun n hd => by
      simp [(Instr.hexDigit_byte hd).2.2.1] at hl
    simp [requestOf_of_hexDigit_eq_none hdigit]
  · simp [requestOf_of_phase_ne, hp]
  · simp [requestOf_of_phase_ne, hp]
  · have hdigit : i.hexDigit = none := Option.eq_none_iff_forall_ne_some.2 fun n hd => by
      simp [(Instr.hexDigit_byte hd).2.1] at hn
    rw [requestOf_of_hexDigit_eq_none hdigit]
    split <;> simp
  · by_cases hp : s.phase = .awaitPayload
    · rw [hp] at hrule
      exact payloadDigit_sinkLog (Instr.hexDigit_of_nibble hw hf hn) hp hr hrule
    · simp [requestOf_of_phase_ne hp, digitRule_sinkLog hp hrule]

end

/-- Settles O41: NOP, INIT, BEGIN and a fault send nothing and have no request; a FEED sends what it asks. -/
theorem requestsExactly : Obligations.RequestsExactly := by
  intro i s t hw h
  obtain ⟨-, ⟨b, rfl, rfl⟩ | ⟨b, rfl, rfl⟩ | ⟨b, rfl, rfl⟩ | ⟨hf, hok | ⟨q, hfault, rfl⟩⟩⟩ := exec_next_cases h
  · simp [requestOf_of_hexDigit_eq_none (i := .nop b) rfl]
  · simp [requestOf_of_hexDigit_eq_none (i := .init b) rfl]
  · simp [requestOf_of_hexDigit_eq_none (i := .begin b) rfl]
  · exact feed_ok_sinkLog hw hf hok
  · simp [requestOf_of_feed_fault hfault]

/-- Settles O42: the command's request joins the end of the list, where `sentByte` reads first. -/
theorem sentBytesFrame : Obligations.SentBytesFrame := by
  intro i s t hw h
  have hlog := requestsExactly i s t hw h
  refine ⟨fun q hq => ?request, fun hnone a => ?noRequest⟩
  case request =>
    have hsent : t.sinkLog = s.sinkLog ++ [q] := by rw [hlog, hq]; rfl
    refine ⟨?_, fun a ha => ?_⟩
    · rw [hsent, sentByte_append, if_pos rfl]
    · rw [hsent, sentByte_append, if_neg ha.symm]
  case noRequest =>
    rw [hlog, hnone]
    simp

end Machine

end Sys2Proof
end

section
/-! The opcode table: which rows a word hits, and what the decoder and the encoder make of each other. -/

namespace Sys2Proof

/-- The rows of priority 1, each of which stands for one word (R89). -/
def exactRows : List OpcodeRow := lineRows ++ decimalRows ++ upperRows ++ lowerRows

/-- The row of priority 2, FEED.OTHER (R107). -/
def otherRow : OpcodeRow := ⟨0x300, 0x300, .feedOther⟩

theorem opcodeRows_eq : opcodeRows = commandRows ++ (exactRows ++ [otherRow]) := rfl

/-- Of members with distinct keys, a filter that asks for the key of one of them keeps that one. -/
theorem filter_eq_singleton_of_distinct {α κ : Type} {key : α → κ} {p : α → Bool} {a : α} {l : List α}
    (hdistinct : l.Pairwise fun x y => key x ≠ key y) (ha : a ∈ l) (hp : ∀ x ∈ l, p x = true ↔ key x = key a) :
    l.filter p = [a] := by
  induction l with
  | nil => cases ha
  | cons x l ih =>
    obtain ⟨hx, hdistinct⟩ := List.pairwise_cons.1 hdistinct
    obtain ⟨hpx, hpl⟩ := List.forall_mem_cons.1 hp
    obtain rfl | ha := List.mem_cons.1 ha
    · have hnone : l.filter p = [] :=
        List.filter_eq_nil_iff.2 fun y hy hpy => hx y hy ((hpl y hy).1 hpy).symm
      rw [List.filter_cons_of_pos (hpx.2 rfl), hnone]
    · rw [List.filter_cons_of_neg fun h => hx a ha (hpx.1 h), ih hdistinct ha hpl]

section
variable {w : CmdWord} {r : OpcodeRow}

/-! ### The rows a word hits -/

/-- The two fields of a word are all of it (R70). -/
theorem cmdWord_cmdOf_byteOf (w : CmdWord) : cmdWord (cmdOf w) (byteOf w) = w := by
  revert w; decide

/-- A row of priority 1 is hit by its pattern alone. -/
theorem exactRows_hit_iff (hr : r ∈ exactRows) : r.hit w = true ↔ w = r.pattern := by
  have hmask : ∀ r ∈ exactRows, r.mask = BitVec.allOnes 10 := by decide
  rw [OpcodeRow.hit, hmask r hr, BitVec.and_allOnes, beq_iff_eq]

/-- The other rows mask the byte away: each is hit by the words of its command code. -/
theorem commandMask_hit_iff (hr : r ∈ commandRows ++ [otherRow]) : r.hit w = true ↔ cmdOf w = cmdOf r.pattern := by
  have hrow : ∀ r ∈ commandRows ++ [otherRow], r.mask = 0x300 ∧ r.pattern = cmdWord (cmdOf r.pattern) 0 := by decide
  have hmasked : ∀ w : CmdWord, w &&& 0x300 = cmdWord (cmdOf w) 0 := by decide
  obtain ⟨hmask, hpattern⟩ := hrow r hr
  rw [OpcodeRow.hit, hmask, hmasked, hpattern, beq_iff_eq]
  constructor
  · intro h
    rw [← (cmdWord_fields (cmdOf w) 0).1, h]
  · intro h
    rw [h, (cmdWord_fields _ 0).1]

/-- The rows of priority 0 are no rows of FEED, and those of priority 1 are. -/
theorem commandRows_cmd : ∀ r ∈ commandRows, cmdOf r.pattern ≠ 3 := by decide

theorem exactRows_cmd : ∀ r ∈ exactRows, cmdOf r.pattern = 3 := by decide

theorem exactRows_filter_of_eq (hr : r ∈ exactRows) (hw : w = r.pattern) : exactRows.filter (·.hit w) = [r] := by
  have hdistinct : exactRows.Pairwise fun a b => a.pattern ≠ b.pattern := by decide
  exact filter_eq_singleton_of_distinct hdistinct hr fun x hx => by rw [exactRows_hit_iff hx, hw, eq_comm]

theorem exactRows_filter_of_ne (hw : ∀ r ∈ exactRows, w ≠ r.pattern) : exactRows.filter (·.hit w) = [] :=
  List.filter_eq_nil_iff.2 fun r hr hhit => hw r hr ((exactRows_hit_iff hr).1 hhit)

/-- A word of NOP, INIT or BEGIN hits the row of its command code only. -/
theorem opcodeRows_filter_command (hr : r ∈ commandRows) (hw : cmdOf w = cmdOf r.pattern) :
    opcodeRows.filter (·.hit w) = [r] := by
  have hdistinct : commandRows.Pairwise fun a b => cmdOf a.pattern ≠ cmdOf b.pattern := by decide
  have hcommand : commandRows.filter (·.hit w) = [r] :=
    filter_eq_singleton_of_distinct hdistinct hr fun x hx => by
      rw [commandMask_hit_iff (List.mem_append_left _ hx), hw, eq_comm]
  have hexact : exactRows.filter (·.hit w) = [] :=
    exactRows_filter_of_ne fun x hx h => commandRows_cmd r hr (by rw [← hw, h, exactRows_cmd x hx])
  have hother : otherRow.hit w = false := by
    rw [← Bool.not_eq_true, commandMask_hit_iff (by simp), hw]
    exact commandRows_cmd r hr
  rw [opcodeRows_eq, List.filter_append, List.filter_append, hcommand, hexact, List.filter_singleton, hother]
  rfl

/-- A FEED word hits the last row, after the row of its character if it has one. -/
theorem opcodeRows_filter_feed (hw : cmdOf w = 3) :
    opcodeRows.filter (·.hit w) = exactRows.filter (·.hit w) ++ [otherRow] := by
  have hcommand : commandRows.filter (·.hit w) = [] := List.filter_eq_nil_iff.2 fun r hr hhit =>
    commandRows_cmd r hr (((commandMask_hit_iff (List.mem_append_left _ hr)).1 hhit).symm.trans hw)
  have hother : otherRow.hit w = true := (commandMask_hit_iff (by simp)).2 hw
  rw [opcodeRows_eq, List.filter_append, List.filter_append, hcommand, List.filter_singleton, hother]
  rfl

/-- The rows that a word hits: the row of its command, the row of its character before FEED.OTHER, or FEED.OTHER
alone. -/
theorem opcodeRows_filter_cases (w : CmdWord) :
    (∃ r ∈ commandRows, cmdOf w = cmdOf r.pattern ∧ opcodeRows.filter (·.hit w) = [r]) ∨
    (∃ r ∈ exactRows, w = r.pattern ∧ opcodeRows.filter (·.hit w) = [r, otherRow]) ∨
    (cmdOf w = 3 ∧ (∀ r ∈ exactRows, w ≠ r.pattern) ∧ opcodeRows.filter (·.hit w) = [otherRow]) := by
  have hcodes : ∀ c : BitVec 2, (∃ r ∈ commandRows, c = cmdOf r.pattern) ∨ c = 3 := by decide
  obtain ⟨r, hr, hw⟩ | hw := hcodes (cmdOf w)
  · exact .inl ⟨r, hr, hw, opcodeRows_filter_command hr hw⟩
  rw [opcodeRows_filter_feed hw]
  by_cases hexact : ∃ r ∈ exactRows, w = r.pattern
  · obtain ⟨r, hr, hpattern⟩ := hexact
    exact .inr (.inl ⟨r, hr, hpattern, by rw [exactRows_filter_of_eq hr hpattern]; rfl⟩)
  · have hne : ∀ r ∈ exactRows, w ≠ r.pattern := fun r hr h => hexact ⟨r, hr, h⟩
    exact .inr (.inr ⟨hw, hne, by rw [exactRows_filter_of_ne hne]; rfl⟩)

/-! ### What the decoder builds -/

/-- The decoder takes the first row hit (R89). -/
theorem decode_of_filter {rest : List OpcodeRow} (h : opcodeRows.filter (·.hit w) = r :: rest) :
    decode w = some (r.build (byteOf w)) := by
  have hfirst : opcodeRows.find? (·.hit w) = some r := by rw [← List.head?_filter, h]; rfl
  have hfind : opcodeRows.find? (fun r => (w &&& r.mask) = r.pattern) = some r := by
    simpa only [OpcodeRow.hit, beq_eq_decide] using hfirst
  rw [decode, hfind]
  rfl

theorem decode_commandRow (hr : r ∈ commandRows) (hw : cmdOf w = cmdOf r.pattern) :
    decode w = some (r.build (byteOf w)) :=
  decode_of_filter (opcodeRows_filter_command hr hw)

theorem decode_other (hw : cmdOf w = 3) (hne : ∀ r ∈ exactRows, w ≠ r.pattern) :
    decode w = some (.feedOther (byteOf w)) := by
  refine decode_of_filter (r := otherRow) (rest := []) ?_
  rw [opcodeRows_filter_feed hw, exactRows_filter_of_ne hne]
  rfl

/-! ### Encoding -/

theorem encode_cmd (i : Instr) : cmdOf (encode i) = i.cmd := (cmdWord_fields i.cmd i.byte).1

theorem encode_byte (i : Instr) : byteOf (encode i) = i.byte := (cmdWord_fields i.cmd i.byte).2

/-- The class OTHER is what the rows of priority 1 leave of the bytes (R72). -/
theorem isOtherByte_iff_no_exactRow : ∀ b : Byte, isOtherByte b = true ↔ ∀ r ∈ exactRows, b ≠ byteOf r.pattern := by
  decide

/-- A row of priority 1 builds the command whose word is the row's pattern. -/
theorem exactRows_encode_build : ∀ r ∈ exactRows,
    (r.build (byteOf r.pattern)).wf = true ∧ encode (r.build (byteOf r.pattern)) = r.pattern := by decide

/-- The rows of priority 0 build the commands of their command code, which keep the byte. -/
theorem commandRows_encode_build (hr : r ∈ commandRows) (b : Byte) :
    (r.build b).wf = true ∧ encode (r.build b) = cmdWord (cmdOf r.pattern) b := by
  simp only [commandRows, List.mem_cons, List.not_mem_nil, or_false] at hr
  obtain rfl | rfl | rfl := hr <;> exact ⟨rfl, rfl⟩

theorem decode_encode_commandRow (hr : r ∈ commandRows) (b : Byte) :
    decode (encode (r.build b)) = some (r.build b) := by
  obtain ⟨hcmd, hbyte⟩ := cmdWord_fields (cmdOf r.pattern) b
  rw [(commandRows_encode_build hr b).2, decode_commandRow hr hcmd, hbyte]

end

/-- Settles O3: the word of NOP, INIT or BEGIN hits the row of its command code, whatever the byte; that of FEED.OTHER
hits the last row alone; the 25 other rows have one word each, which is evaluated. -/
theorem decodeEncodeAgree : Obligations.DecodeEncodeAgree := by
  intro i hw
  cases i with
  | nop b => exact decode_encode_commandRow (r := ⟨0x000, 0x300, .nop⟩) (by simp [commandRows]) b
  | init b => exact decode_encode_commandRow (r := ⟨0x100, 0x300, .init⟩) (by simp [commandRows]) b
  | begin b => exact decode_encode_commandRow (r := ⟨0x200, 0x300, .begin⟩) (by simp [commandRows]) b
  | feedOther b =>
    have hrow := decode_other (encode_cmd (.feedOther b)) fun r hr h =>
      (isOtherByte_iff_no_exactRow b).1 hw r hr (by rw [← h, encode_byte]; rfl)
    rw [hrow, encode_byte]
    rfl
  | _ => decide

/-- Settles O4: the rows that a word hits, and the decoder's choice of the first. -/
theorem opcodeTableUnambiguous : Obligations.OpcodeTableUnambiguous := by
  refine ⟨rfl, fun w => ?_⟩
  obtain ⟨r, -, -, hrows⟩ | ⟨r, -, -, hrows⟩ | ⟨-, -, hrows⟩ := opcodeRows_filter_cases w
  · exact ⟨r, [], hrows, decode_of_filter hrows, .inl rfl⟩
  · exact ⟨r, [otherRow], hrows, decode_of_filter hrows, .inr ⟨otherRow, rfl, rfl, rfl, rfl⟩⟩
  · exact ⟨otherRow, [], hrows, decode_of_filter hrows, .inl rfl⟩

/-- Settles O2, by the row that decodes the word. -/
theorem everyWordDecodesAndEncodesBack : Obligations.EveryWordDecodesAndEncodesBack := by
  intro w
  obtain ⟨r, hr, hw, hrows⟩ | ⟨r, hr, rfl, hrows⟩ | ⟨hw, hne, hrows⟩ := opcodeRows_filter_cases w
  · obtain ⟨hwf, hencode⟩ := commandRows_encode_build hr (byteOf w)
    exact ⟨_, decode_of_filter hrows, hwf, by rw [hencode, ← hw, cmdWord_cmdOf_byteOf]⟩
  · obtain ⟨hwf, hencode⟩ := exactRows_encode_build r hr
    exact ⟨_, decode_of_filter hrows, hwf, hencode⟩
  · refine ⟨.feedOther (byteOf w), decode_of_filter hrows, (isOtherByte_iff_no_exactRow _).2 fun r hr h => ?_, ?_⟩
    · exact hne r hr (by rw [← cmdWord_cmdOf_byteOf w, hw, h, ← exactRows_cmd r hr, cmdWord_cmdOf_byteOf])
    · have hcmd : encode (.feedOther (byteOf w)) = cmdWord 3 (byteOf w) := rfl
      rw [hcmd, ← hw, cmdWord_cmdOf_byteOf]

/-- A FEED word decodes to the well-formed FEED of its byte. -/
theorem decode_feedWord (b : Byte) :
    ∃ i, decode (cmdWord 3 b) = some i ∧ i.wf = true ∧ i.isFeed = true ∧ i.byte = b := by
  obtain ⟨i, hdecode, hwf, hencode⟩ := everyWordDecodesAndEncodesBack (cmdWord 3 b)
  refine ⟨i, hdecode, hwf, ?_, ?_⟩
  · rw [Instr.isFeed, ← encode_cmd, hencode, (cmdWord_fields 3 b).1]
    rfl
  · rw [← encode_byte, hencode, (cmdWord_fields 3 b).2]

/-- Settles O1: the encoding of each command is its code and its byte, and the byte of NOP, INIT and BEGIN is not
looked at. -/
theorem commandCodeSelectsCommand : Obligations.CommandCodeSelectsCommand := by
  intro b
  obtain ⟨i, hdecode, -, hfeed, hbyte⟩ := decode_feedWord b
  exact ⟨decodeEncodeAgree (.nop b) rfl, decodeEncodeAgree (.init b) rfl, decodeEncodeAgree (.begin b) rfl,
    ⟨i, hdecode, hfeed, hbyte⟩, fun _ _ => ⟨rfl, rfl, rfl⟩⟩

/-- The class OTHER is what decodes to FEED.OTHER (R72). -/
theorem decode_feedWord_eq_other_iff (b : Byte) :
    decode (cmdWord 3 b) = some (.feedOther b) ↔ isOtherByte b = true := by
  constructor
  · intro h
    obtain ⟨i, hdecode, hwf, -⟩ := decode_feedWord b
    obtain rfl : i = .feedOther b := Option.some.inj (hdecode.symm.trans h)
    exact hwf
  · exact decodeEncodeAgree (.feedOther b)

/-- The characters of the three ranges of R121 have a nibble. -/
theorem Machine.nibble_isSome_of_range {b : Byte}
    (h : (0x30 ≤ b ∧ b ≤ 0x39) ∨ (0x41 ≤ b ∧ b ≤ 0x46) ∨ (0x61 ≤ b ∧ b ≤ 0x66)) : (nibble b).isSome = true := by
  unfold nibble
  split_ifs with h0 h1 h2
  · rfl
  · rfl
  · rfl
  · exact absurd h (by simp only [not_or]; exact ⟨h0, h1, h2⟩)

/-- Settles O5: each class is decoded as its command is encoded, and the class OTHER is counted by its ranges. -/
theorem feedByteClasses : Obligations.FeedByteClasses := by
  refine ⟨fun b => ⟨?cr, ?lf, ?mark, ?hex, ?other⟩, ?count⟩
  case cr => rintro rfl; exact decodeEncodeAgree .feedCr rfl
  case lf => rintro rfl; exact decodeEncodeAgree .feedLf rfl
  case mark => rintro rfl; exact decodeEncodeAgree .feedMark rfl
  case hex =>
    intro h
    obtain ⟨n, hn⟩ := Option.isSome_iff_exists.1 (Machine.nibble_isSome_of_range h)
    obtain ⟨i, hdecode, hwf, hfeed, rfl⟩ := decode_feedWord b
    rw [hdecode, Option.bind_some, Instr.hexDigit_of_nibble hwf hfeed hn]
    rfl
  case other =>
    intro h
    rw [decode_feedWord_eq_other_iff]
    simpa [isOtherByte, or_assoc] using h
  case count =>
    have hclass (n : Nat) : (decode (cmdWord 3 (BitVec.ofNat 8 n)) == some (.feedOther (BitVec.ofNat 8 n))) =
        isOtherByte (BitVec.ofNat 8 n) := by
      rw [Bool.eq_iff_iff, beq_iff_eq, decode_feedWord_eq_other_iff]
    simp only [hclass]
    rfl

/-- Settles O6: the words are the encodings of the rows. -/
theorem tableWordsDecode : Obligations.TableWordsDecode :=
  ⟨decodeEncodeAgree (.nop 0x00) rfl, decodeEncodeAgree (.init 0x00) rfl, decodeEncodeAgree (.begin 0x00) rfl,
    decodeEncodeAgree .feedCr rfl, decodeEncodeAgree .feedLf rfl, decodeEncodeAgree .feedMark rfl,
    decodeEncodeAgree .feedHex0 rfl, decodeEncodeAgree .feedHex9 rfl, decodeEncodeAgree .feedHexUpperF rfl,
    decodeEncodeAgree .feedHexLowerA rfl, decodeEncodeAgree (.feedOther 0x47) rfl⟩

end Sys2Proof
end

section
/-! The status word (30_encoding.md R80): its value, and what it tells apart. -/

namespace Sys2Proof.Machine

/-- The block's own codes keep their value at every width (R80). -/
theorem statusWord_own_toNat (w : Nat) (k : Byte) : (statusWord w (.own k)).toNat = k.toNat := by
  have hwidth : 8 ≤ max 8 w := le_max_left 8 w
  simp [statusWord, BitVec.toNat_append, BitVec.toNat_setWidth_of_le hwidth]

/-- The sink's codes stand above the bit `EXT`, cut to the width of the port (R80). -/
theorem statusWord_ext_toNat (w c : Nat) :
    (statusWord w (.ext c)).toNat = 2 ^ max 8 w + c % 2 ^ max 8 w := by
  have hlow : c % 2 ^ max 8 w < 2 ^ max 8 w := Nat.mod_lt _ (Nat.two_pow_pos _)
  rw [statusWord, BitVec.toNat_append, BitVec.toNat_ofNat, ← Nat.shiftLeft_add_eq_or_of_lt hlow]
  simp [Nat.shiftLeft_eq]

/-- A code that the port does not cut fits the port (R9). -/
theorem ext_lt_of_statusOnPort_eq {w c : Nat} (h : statusOnPort w (.ext c) = .ext c) : c < 2 ^ max 8 w := by
  have hcut : c % 2 ^ w = c := Status.ext.inj h
  calc c = c % 2 ^ w := hcut.symm
    _ < 2 ^ w := Nat.mod_lt _ (Nat.two_pow_pos w)
    _ ≤ 2 ^ max 8 w := Nat.pow_le_pow_right (by decide) (le_max_right 8 w)

/-- An own status lies below the bit `EXT` and a sink's status does not. -/
theorem statusWord_own_ne_ext (w : Nat) (k : Byte) (c : Nat) : statusWord w (.own k) ≠ statusWord w (.ext c) := by
  intro h
  have hvalue := congrArg BitVec.toNat h
  rw [statusWord_own_toNat, statusWord_ext_toNat] at hvalue
  have hbit : 2 ^ 8 ≤ 2 ^ max 8 w := Nat.pow_le_pow_right (by decide) (le_max_left 8 w)
  have := k.isLt
  omega

/-- Settles O11: the bit `EXT` tells own from sink, and the value of the word tells the code. -/
theorem statusWordsDistinguish : Obligations.StatusWordsDistinguish := by
  intro w a b _ ha hb h
  cases a with
  | own k =>
    cases b with
    | own k' =>
      have hvalue := congrArg BitVec.toNat h
      rw [statusWord_own_toNat, statusWord_own_toNat] at hvalue
      rw [BitVec.eq_of_toNat_eq hvalue]
    | ext c => exact absurd h (statusWord_own_ne_ext w k c)
  | ext c =>
    cases b with
    | own k => exact absurd h.symm (statusWord_own_ne_ext w k c)
    | ext c' =>
      have hvalue := congrArg BitVec.toNat h
      rw [statusWord_ext_toNat, statusWord_ext_toNat, Nat.mod_eq_of_lt (ext_lt_of_statusOnPort_eq ha),
        Nat.mod_eq_of_lt (ext_lt_of_statusOnPort_eq hb)] at hvalue
      rw [Nat.add_left_cancel hvalue]

/-- Settles O10, from the value of the status word at every width. -/
theorem statusWordLayout : Obligations.StatusWordLayout := by
  refine ⟨statusWord_own_toNat 8 _, statusWord_own_toNat 8 _, statusWord_own_toNat 8 _, statusWord_own_toNat 8 _,
    statusWord_own_toNat 8, fun c hc => ?_⟩
  have hvalue : (statusWord 8 (.ext c)).toNat = 0x100 + c % 0x100 := statusWord_ext_toNat 8 c
  rw [hvalue, Nat.mod_eq_of_lt hc]

end Sys2Proof.Machine
end

section
/-! Statements about one FEED: a reserved phase, the case of a hex character, and the start of a record. -/

namespace Sys2Proof

/-- Only FEED.CR and FEED.LF feed a line end (R104). -/
theorem Instr.isLineEnd_byte_eq_false {i : Instr} (hw : i.wf = true) (hf : i.isFeed = true) (hcr : i ≠ .feedCr)
    (hlf : i ≠ .feedLf) : Machine.isLineEnd i.byte = false := by
  obtain rfl | rfl | rfl | ⟨b, rfl⟩ | ⟨n, hn⟩ := Instr.feed_kinds hf
  · exact absurd rfl hcr
  · exact absurd rfl hlf
  · rfl
  · exact (isOtherByte_spec b hw).2.1
  · exact (Instr.hexDigit_byte hn).2.2.1

namespace Machine

section
variable {b c : Byte} {n : Nibble} {r : Nat} {s t : State}

/-- FEED looks at a hex character only through its nibble (R76). -/
theorem feed_eq_of_nibble (hb : nibble b = some n) (hc : nibble c = some n) : feed b s = feed c s := by
  have hchar : ∀ b : Byte, (nibble b).isSome = true → isLineEnd b = false ∧ b ≠ markChar := by decide
  obtain ⟨hbl, hbm⟩ := hchar b (by rw [hb]; rfl)
  obtain ⟨hcl, hcm⟩ := hchar c (by rw [hc]; rfl)
  by_cases hm : s.phase = .awaitMark
  · rw [feed_mark hbl hm, feed_mark hcl hm, markStep, markStep, if_neg hbm, if_neg hcm]
  by_cases hd : s.phase.isDigit = true
  · rw [feed_digitPhase hbl hd, feed_digitPhase hcl hd, digitStep, digitStep, hb, hc]
  · have hres : s.phase = .reserved6 ∨ s.phase = .reserved7 := by cases hp : s.phase <;> simp_all [Phase.isDigit]
    rw [feed_reserved hbl hres, feed_reserved hcl hres]

/-- No digit rule reports the start of a record (R84). -/
theorem digitRule_recStart {p : Phase} (hp : p.isDigit = true) (h : digitRule p n r s = .ok t) :
    t.result.recStart = false := by
  cases p with
  | awaitLength => obtain ⟨-, rfl⟩ | ⟨-, rfl⟩ := lengthDigit_cases h <;> rfl
  | awaitAddress => obtain ⟨-, rfl⟩ | ⟨-, rfl⟩ := addressDigit_cases h <;> rfl
  | awaitType => obtain ⟨-, rfl⟩ | ⟨-, _, -, rfl⟩ := typeDigit_cases h <;> rfl
  | awaitPayload => obtain ⟨-, rfl⟩ | ⟨-, _, _, _, _, _, _, rfl, -⟩ := payloadDigit_cases h <;> rfl
  | awaitChecksum => obtain ⟨-, rfl⟩ | ⟨-, rfl⟩ := checksumDigit_cases h <;> rfl
  | awaitMark => cases hp
  | reserved6 => cases hp
  | reserved7 => cases hp

/-- A FEED reports the start of a record exactly for the mark in AwaitMark (R84, R141). -/
theorem feed_ok_recStart_iff (h : feed b s = .ok t) :
    t.result.recStart = true ↔ b = markChar ∧ s.phase = .awaitMark := by
  obtain ⟨hl, rfl⟩ | ⟨-, hp, hb, rfl⟩ | ⟨-, -, hb, rfl⟩ | ⟨-, hp, -, -, rfl⟩ | ⟨-, hp, -, n, -, hrule⟩ :=
    feed_ok_cases h
  · have hmark : b ≠ markChar := by rintro rfl; cases hl
    simp [hmark, Result.returns]
  · simp [hp, hb]
  · simp [hb, Result.returns]
  · have hphase : s.phase ≠ .awaitMark := by intro hm; simp [hm, Phase.isDigit] at hp
    simp [hphase, Result.returns]
  · have hphase : s.phase ≠ .awaitMark := by intro hm; simp [hm, Phase.isDigit] at hp
    simp [hphase, digitRule_recStart hp hrule]

end

/-- Settles O23: FEED dispatches to the fault, which is taken on the state the command started from. -/
theorem reservedPhaseFaults : Obligations.ReservedPhaseFaults := by
  intro i s hw hf hcr hlf hfault hp
  have hfeed : feed i.byte s = .error (.fault .illegalPhase) :=
    feed_reserved (Instr.isLineEnd_byte_eq_false hw hf hcr hlf) hp
  rw [exec_feed hf, runCommand_fault hfault hfeed]
  rfl

/-- Settles O34: both commands feed a character of the same nibble. -/
theorem hexDigitsCaseInsensitive : Obligations.HexDigitsCaseInsensitive := by
  intro i j s hi hij
  obtain ⟨n, hn⟩ := Option.isSome_iff_exists.1 hi
  obtain ⟨hfi, hbi, -, -⟩ := Instr.hexDigit_byte hn
  obtain ⟨hfj, hbj, -, -⟩ := Instr.hexDigit_byte (hij.symm.trans hn)
  rw [exec_feed hfi, exec_feed hfj, runCommand, runCommand, feed_eq_of_nibble hbi hbj]

/-- Settles O38: NOP, INIT, BEGIN and a fault report no record start, and a FEED reports that of its character. -/
theorem recordStartExactly : Obligations.RecordStartExactly := by
  intro i s t hw h
  obtain ⟨-, ⟨b, rfl, rfl⟩ | ⟨b, rfl, rfl⟩ | ⟨b, rfl, rfl⟩ | ⟨hf, hok | ⟨q, hfault, rfl⟩⟩⟩ := exec_next_cases h
  · simp [Result.nothing]
  · simp [Result.nothing]
  · simp [Result.nothing]
  · have hchar : i.byte = markChar ↔ i = .feedMark :=
      ⟨Instr.eq_feedMark_of_byte hw hf, by rintro rfl; rfl⟩
    rw [feed_ok_recStart_iff hok, hchar]
  · have hnot : ¬(i = .feedMark ∧ s.phase = .awaitMark) := by
      rintro ⟨rfl, hm⟩
      rw [feed_mark rfl hm, markStep, if_pos (show Instr.feedMark.byte = markChar from rfl)] at hfault
      cases hfault
    simp [hnot, Result.nothing]

end Machine

end Sys2Proof
end

section
/-! The characters of a record, one step each: the digits of a field, the header of a record and its checksum. -/

namespace Sys2Proof.Machine

/-! ### Digits and fields -/

/-- `insertDigit` bit by bit (R122): its nibble in its slot, the field everywhere else. -/
theorem getLsbD_insertDigit {w k : Nat} (f : BitVec w) (n : Nibble) (p : Nat) (hk : k < w) :
    (insertDigit f n p).getLsbD k =
      if 4 * p ≤ k ∧ k < 4 * p + 4 then n.getLsbD (k - 4 * p) else f.getLsbD k := by
  have hmask : (15#w)[k - 4 * p] = decide (k - 4 * p < 4) := by
    rw [← BitVec.getLsbD_eq_getElem, BitVec.getLsbD_ofNat, show 15 = 2 ^ 4 - 1 from rfl, Nat.testBit_two_pow_sub_one,
      decide_eq_true (show k - 4 * p < w by omega), Bool.true_and]
  by_cases hlow : k < 4 * p
  · simp [insertDigit, hk, hlow, show ¬ 4 * p ≤ k by omega]
  by_cases hslot : k < 4 * p + 4
  · simp [insertDigit, hk, hlow, hslot, hmask, show 4 * p ≤ k by omega, show k - 4 * p < 4 by omega]
  · have hnibble : n.getLsbD (k - 4 * p) = false := BitVec.getLsbD_of_ge n _ (by omega)
    simp [insertDigit, hk, hlow, hslot, hmask, hnibble, show ¬ k - 4 * p < 4 by omega]

/-- The two digits of a byte make the byte, whatever its field held (R52). -/
theorem insertDigit_byte (f b : Byte) :
    insertDigit (insertDigit f (b.extractLsb' 4 4) 1) (b.extractLsb' 0 4) 0 = b := by
  refine BitVec.eq_of_getLsbD_eq fun k hk => ?_
  simp only [getLsbD_insertDigit _ _ _ hk, BitVec.getLsbD_extractLsb']
  split_ifs with h0 h1
  · rw [show 0 + (k - 4 * 0) = k by omega, decide_eq_true (by omega), Bool.true_and]
  · rw [show 4 + (k - 4 * 1) = k by omega, decide_eq_true (by omega), Bool.true_and]
  · omega

/-- The four digits of a load offset make the load offset, whatever its field held (R52, R145). -/
theorem insertDigit_word (f a : BitVec 16) :
    insertDigit (insertDigit (insertDigit (insertDigit f ((a.extractLsb' 8 8).extractLsb' 4 4) 3)
      ((a.extractLsb' 8 8).extractLsb' 0 4) 2) ((a.extractLsb' 0 8).extractLsb' 4 4) 1)
      ((a.extractLsb' 0 8).extractLsb' 0 4) 0 = a := by
  refine BitVec.eq_of_getLsbD_eq fun k hk => ?_
  simp only [getLsbD_insertDigit _ _ _ hk, BitVec.getLsbD_extractLsb']
  split_ifs with h0 h1 h2 h3
  · rw [show 0 + (0 + (k - 4 * 0)) = k by omega, decide_eq_true (by omega), decide_eq_true (by omega)]; rfl
  · rw [show 0 + (4 + (k - 4 * 1)) = k by omega, decide_eq_true (by omega), decide_eq_true (by omega)]; rfl
  · rw [show 8 + (0 + (k - 4 * 2)) = k by omega, decide_eq_true (by omega), decide_eq_true (by omega)]; rfl
  · rw [show 8 + (4 + (k - 4 * 3)) = k by omega, decide_eq_true (by omega), decide_eq_true (by omega)]; rfl
  · omega

section
variable {n : Nibble} {r : Nat} {s t u : State}

/-! The last digit of each field, by the value it completes. -/

theorem lengthDigit_last {b : Byte} (h : insertDigit s.length n 0 = b) : lengthDigit n 0 s = .ok { s with
    length := b, runningChecksum := s.runningChecksum + b, phase := .awaitAddress, remainingDigits := 4,
    result := Result.returns .continue_ } := by
  subst h; rfl

theorem addressDigit_last {a : BitVec 16} (h : insertDigit s.loadOffset n 0 = a) : addressDigit n 0 s = .ok { s with
    loadOffset := a, runningChecksum := s.runningChecksum + a.extractLsb' 8 8 + a.extractLsb' 0 8,
    phase := .awaitType, remainingDigits := 2, result := Result.returns .continue_ } := by
  subst h; rfl

/-- The end of the header: the state after the last digit of the type `tt` (R149, R150). -/
def State.typed (s : State) (tt : Byte) : State := { s with
  recType := tt
  runningChecksum := s.runningChecksum + tt
  extensionBase := if isExtensionType tt then 0 else s.extensionBase
  extensionBytePos := if isExtensionType tt then (if tt = 0x02 then 1 else 3) else s.extensionBytePos
  phase := if s.length ≠ 0 then .awaitPayload else .awaitChecksum
  remainingDigits := if s.length ≠ 0 then payloadDigits s.length else 2
  result := Result.returns .continue_ }

theorem typeDigit_last_typed {tt : Byte} (h : insertDigit s.recType n 0 = tt) :
    typeDigit n 0 s = .ok (s.typed tt) := by
  subst h; exact typeDigit_last n s

theorem checksumDigit_last {cc : Byte} (h : insertDigit s.targetChecksum n 0 = cc) :
    checksumDigit n 0 s = .ok { s with
      targetChecksum := cc, phase := .awaitMark,
      result := Result.returns (recordStatus s.recType s.runningChecksum cc) } := by
  subst h; rfl

/-! ### Characters, one step each -/

/-- The input that feeds a character (R88). -/
def feedInput (b : Byte) : Input := .command (cmdWord 3 b)

/-- The block takes the character `b` in one step from `s` to `t`, whatever inputs follow. -/
def Takes (b : Byte) (s t : State) : Prop :=
  ∀ tail, step { s with inputs := feedInput b :: tail } = .next { t with inputs := tail }

/-- A FEED word runs the FEED of its byte. -/
theorem step_feedInput (b : Byte) (s : State) (tail : List Input) :
    step { s with inputs := feedInput b :: tail } = runCommand (feed b) { s with inputs := tail } := by
  obtain ⟨i, hdecode, -, hfeed, rfl⟩ := decode_feedWord b
  exact (step_of_command_next rfl hdecode).trans (exec_feed hfeed _)

theorem takes_of_feed {b : Byte} (hfault : s.fault = none)
    (h : ∀ tail, feed b { s with inputs := tail } = .ok { t with inputs := tail }) : Takes b s t := fun tail => by
  rw [step_feedInput]
  exact runCommand_ok hfault (h tail)

theorem hexChar_spec : ∀ n : Nibble, nibble (hexChar n) = some n ∧ isLineEnd (hexChar n) = false := by decide

/-- A hex character in a digit phase runs the digit rule of the phase. -/
theorem feed_hexChar {p : Phase} (hp : s.phase = p) (hd : p.isDigit = true) (hr : s.remainingDigits.toNat = r + 1) :
    feed (hexChar n) s = digitRule p n r s.takeDigit := by
  obtain ⟨hn, hl⟩ := hexChar_spec n
  subst hp
  have hcount : s.remainingDigits ≠ 0 := by rintro h0; simp [h0] at hr
  rw [feed_digitPhase hl hd, digitStep_digit hcount hn, takeDigit_slot hcount, hr, Nat.add_sub_cancel]

theorem takes_hexChar {p : Phase} (hfault : s.fault = none) (hp : s.phase = p) (hd : p.isDigit = true)
    (hr : s.remainingDigits.toNat = r + 1)
    (h : ∀ tail, digitRule p n r { s.takeDigit with inputs := tail } = .ok { t with inputs := tail }) :
    Takes (hexChar n) s t :=
  takes_of_feed hfault fun tail => (feed_hexChar (by exact hp) hd (by exact hr)).trans (h tail)

/-- The block takes the characters of `text` one after the other, and each returns a status that meets `P`. -/
inductive Feeds (P : Status → Prop) : List Byte → State → State → Prop
  | nil {s : State} : Feeds P [] s s
  | cons {b : Byte} {st : Status} {text : List Byte} {s u t : State} (first : Takes b s u)
      (returned : u.result.status = some st) (meets : P st) (others : Feeds P text u t) : Feeds P (b :: text) s t

section
variable {P : Status → Prop} {text text' : List Byte}

theorem Feeds.append (h : Feeds P text s u) (h' : Feeds P text' u t) : Feeds P (text ++ text') s t := by
  induction h with
  | nil => exact h'
  | cons first returned meets _ ih => exact .cons first returned meets (ih h')

theorem run_succ_of_step {M : Host.Core} {s t : M.State} (k : Nat) (h : M.step s = .next t) :
    M.run (k + 1) s = M.run k t := by
  rw [Host.Core.run, h]

/-- A text that is fed runs in one step per character. -/
theorem Feeds.run (h : Feeds P text s t) (k : Nat) (tail : List Input) :
    core.run (text.length + k) { s with inputs := text.map feedInput ++ tail } =
      core.run k { t with inputs := tail } := by
  induction h with
  | nil => simp
  | @cons b st text s u t first returned meets others ih =>
    have hsteps : (b :: text).length + k = text.length + k + 1 := by rw [List.length_cons]; omega
    rw [hsteps, ← ih]
    exact run_succ_of_step _ (first _)

theorem Feeds.run_fed (h : Feeds P text s t) (others : List Byte) (k : Nat) :
    core.run (text.length + k) (s.fed (text ++ others)) = core.run k (t.fed others) := by
  rw [State.fed, List.map_append]
  exact h.run k _

/-- A beginning of a text that is fed is fed too, and its last character returns a status that meets `P`. -/
theorem Feeds.take (h : Feeds P text s t) {k : Nat} (hk : 1 ≤ k) (hlen : k ≤ text.length) :
    ∃ u st, Feeds P (text.take k) s u ∧ u.result.status = some st ∧ P st := by
  induction h generalizing k with
  | nil => simp at hlen; omega
  | @cons b st text s u t first returned meets others ih =>
    obtain _ | k := k
    · omega
    obtain rfl | hk := Nat.eq_zero_or_pos k
    · exact ⟨u, st, .cons first returned meets .nil, returned, meets⟩
    · obtain ⟨v, st', hv, hst'⟩ := ih hk (by simpa using hlen)
      exact ⟨v, st', .cons first returned meets hv, hst'⟩

/-! ### The fields of a record -/

/-- The state after a digit of the load offset that is not the last (R145). -/
def State.offsetDigit (s : State) (n : Nibble) (r : Nat) : State := { s.takeDigit with
  loadOffset := insertDigit s.loadOffset n r, result := Result.returns .continue_ }

@[simp] theorem offsetDigit_remainingDigits (s : State) (n : Nibble) (r : Nat) :
    (s.offsetDigit n r).remainingDigits = s.remainingDigits - 1 := rfl

theorem takes_offsetDigit (hfault : s.fault = none) (hp : s.phase = .awaitAddress)
    (hr : s.remainingDigits.toNat = r + 1 + 1) : Takes (hexChar n) s (s.offsetDigit n (r + 1)) :=
  takes_hexChar (r := r + 1) hfault hp rfl hr fun _ => rfl

/-- The mark in AwaitMark starts a record (R141). -/
theorem takes_mark (hfault : s.fault = none) (hp : s.phase = .awaitMark) :
    Takes markChar s (startRecord s).respondRecordStart :=
  takes_of_feed hfault fun tail => by
    rw [feed_mark rfl (by exact hp), markStep, if_pos rfl]
    rfl

variable (hfault : s.fault = none) (hP : P .continue_)
include hfault hP

theorem feeds_length (hp : s.phase = .awaitLength) (hr : s.remainingDigits = 2) (b : Byte) :
    Feeds P (byteText b) s { s with
      length := b, runningChecksum := s.runningChecksum + b, phase := .awaitAddress, remainingDigits := 4,
      result := Result.returns .continue_ } := by
  have hhigh : Takes (hexChar (b.extractLsb' 4 4)) s { s.takeDigit with
      length := insertDigit s.length (b.extractLsb' 4 4) 1, result := Result.returns .continue_ } :=
    takes_hexChar (r := 1) hfault hp rfl (by rw [hr]; rfl) fun _ => rfl
  refine .cons hhigh rfl hP (.cons ?_ rfl hP .nil)
  exact takes_hexChar (r := 0) hfault hp rfl (by rw [takeDigit_remainingDigits, hr]; rfl)
    fun _ => lengthDigit_last (insertDigit_byte s.length b)

theorem feeds_address (hp : s.phase = .awaitAddress) (hr : s.remainingDigits = 4) (a : BitVec 16) :
    Feeds P (byteText (a.extractLsb' 8 8) ++ byteText (a.extractLsb' 0 8)) s { s with
      loadOffset := a, runningChecksum := s.runningChecksum + a.extractLsb' 8 8 + a.extractLsb' 0 8,
      phase := .awaitType, remainingDigits := 2, result := Result.returns .continue_ } := by
  refine .cons (takes_offsetDigit (r := 2) hfault hp (by simp [hr])) rfl hP ?_
  refine .cons (takes_offsetDigit (r := 1) hfault hp (by simp [hr])) rfl hP ?_
  refine .cons (takes_offsetDigit (r := 0) hfault hp (by simp [hr])) rfl hP (.cons ?_ rfl hP .nil)
  exact takes_hexChar (r := 0) hfault hp rfl (by simp [hr])
    fun _ => addressDigit_last (insertDigit_word s.loadOffset a)

theorem feeds_type (hp : s.phase = .awaitType) (hr : s.remainingDigits = 2) (tt : Byte) :
    Feeds P (byteText tt) s (s.typed tt) := by
  have hhigh : Takes (hexChar (tt.extractLsb' 4 4)) s { s.takeDigit with
      recType := insertDigit s.recType (tt.extractLsb' 4 4) 1, result := Result.returns .continue_ } :=
    takes_hexChar (r := 1) hfault hp rfl (by rw [hr]; rfl) fun _ => rfl
  refine .cons hhigh rfl hP (.cons ?_ rfl hP .nil)
  exact takes_hexChar (r := 0) hfault hp rfl (by rw [takeDigit_remainingDigits, hr]; rfl)
    fun _ => typeDigit_last_typed (insertDigit_byte s.recType tt)

omit hP in
/-- The two characters of the checksum: the first is kept, and the second ends the record (R192, R193). -/
theorem takes_checksum (hp : s.phase = .awaitChecksum) (hr : s.remainingDigits = 2) (cc : Byte) :
    ∃ u, Takes (hexChar (cc.extractLsb' 4 4)) s u ∧ u.result = Result.returns .continue_ ∧
      Takes (hexChar (cc.extractLsb' 0 4)) u { s.takeDigit.takeDigit with
        targetChecksum := cc, phase := .awaitMark,
        result := Result.returns (recordStatus s.recType s.runningChecksum cc) } := by
  refine ⟨{ s.takeDigit with
    targetChecksum := insertDigit s.targetChecksum (cc.extractLsb' 4 4) 1, result := Result.returns .continue_ },
    ?high, rfl, ?low⟩
  case high => exact takes_hexChar (r := 1) hfault hp rfl (by rw [hr]; rfl) fun _ => rfl
  case low =>
    exact takes_hexChar (r := 0) hfault hp rfl (by rw [takeDigit_remainingDigits, hr]; rfl)
      fun _ => checksumDigit_last (insertDigit_byte s.targetChecksum cc)

/-- The state after the header of a record: mark, length, load offset and type. -/
def afterHeader (s : State) (ll : Byte) (aaaa : BitVec 16) (tt : Byte) : State :=
  State.typed { startRecord s with
    length := ll, loadOffset := aaaa,
    runningChecksum := 0 + ll + aaaa.extractLsb' 8 8 + aaaa.extractLsb' 0 8 } tt

omit hfault hP in
/-- After the header the sum holds all its bytes (R77). -/
theorem afterHeader_runningChecksum (s : State) (ll : Byte) (aaaa : BitVec 16) (tt : Byte) :
    (afterHeader s ll aaaa tt).runningChecksum = ll + aaaa.extractLsb' 8 8 + aaaa.extractLsb' 0 8 + tt := by
  change 0 + ll + _ + _ + tt = _
  rw [zero_add]

/-- The characters of a header each return Continue (R141 to R150). -/
theorem feeds_header (hp : s.phase = .awaitMark) (ll : Byte) (aaaa : BitVec 16) (tt : Byte) :
    Feeds P (markChar :: byteText ll ++ byteText (aaaa.extractLsb' 8 8) ++ byteText (aaaa.extractLsb' 0 8) ++
      byteText tt) s (afterHeader s ll aaaa tt) := by
  have hmark : Feeds P [markChar] s (startRecord s).respondRecordStart := .cons (takes_mark hfault hp) rfl hP .nil
  have hlength := hmark.append (feeds_length (by exact hfault) hP rfl rfl ll)
  have haddress := hlength.append (feeds_address (by exact hfault) hP rfl rfl aaaa)
  have htype := haddress.append (feeds_type (by exact hfault) hP rfl rfl tt)
  rw [← List.append_assoc] at htype
  exact htype

end
end

end Sys2Proof.Machine
end

section
/-! A data record fed in full (43_payload_extension.md R165, R169; 44_checksum_validator.md R193, R196): the payload
byte by byte, and the whole record. -/

namespace Sys2Proof.Machine

/-- Where a data record is to end: the base and offset it is addressed by, and the requests, the sum and the script
once all its bytes are delivered. -/
structure Delivery where
  extensionBase : Addr
  loadOffset : BitVec 16
  sinkLog : List SinkRequest
  sum : Byte
  sinkScript : List SinkResponse

/-- The state `s` is inside the data record of `d`, `k` bytes are delivered, the bytes `dd` are still to come, and the
sink will answer them with `sts`. -/
structure Delivery.Pending (d : Delivery) (k : Nat) (dd : List Byte) (sts : List Status) (s : State) : Prop where
  fault : s.fault = none
  bound : s.cbBound = true
  recType : s.recType = 0x00
  extensionBase : s.extensionBase = d.extensionBase
  loadOffset : s.loadOffset = d.loadOffset
  index : s.recordByteIndex = BitVec.ofNat 8 k
  fits : k + dd.length < 256
  answers : sts.length = dd.length
  sinkScript : s.sinkScript = sts.map .answers ++ d.sinkScript
  sinkLog : s.sinkLog ++ dataRequests (d.extensionBase + d.loadOffset.setWidth 32) k dd = d.sinkLog
  sum : dd.foldl (· + ·) s.runningChecksum = d.sum
  phase : s.phase = if dd.length = 0 then .awaitChecksum else .awaitPayload
  digits : s.remainingDigits.toNat = if dd.length = 0 then 2 else 2 * dd.length

section
variable {P : Status → Prop} {d : Delivery} {k : Nat} {b : Byte} {dd : List Byte} {st : Status} {sts : List Status}
  {s : State}

/-- The state after the second digit of a payload byte `b` that the sink answers with `st` (R165). -/
def State.delivered (s : State) (b : Byte) (st : Status) (rest : List SinkResponse) (r : Nat) : State := { s with
  pendingByte := b
  runningChecksum := s.runningChecksum + b
  recordByteIndex := s.recordByteIndex + 1
  sinkLog := s.sinkLog ++ [⟨s.dataAddress, b⟩]
  sinkScript := rest
  phase := if r = 0 then .awaitChecksum else s.phase
  remainingDigits := if r = 0 then 2 else s.remainingDigits
  result := Result.returns (statusOnPort s.params.extCodeW st) }

theorem payloadDigit_delivered {n : Nibble} {r : Nat} {rest : List SinkResponse} (hr : r % 2 = 0)
    (htype : s.recType = 0x00) (hbound : s.cbBound = true) (hb : insertDigit s.pendingByte n 0 = b)
    (hscript : s.sinkScript = .answers st :: rest) :
    payloadDigit n r s = .ok (s.delivered b st rest r) := by
  subst hb
  exact payloadDigit_answered hr htype hbound (by rw [sinkAnswer, hscript])

/-- The address of byte `k` of a data record (R165). -/
theorem Delivery.Pending.dataAddress (h : d.Pending k (b :: dd) sts s) :
    s.dataAddress = d.extensionBase + d.loadOffset.setWidth 32 + BitVec.ofNat 32 k := by
  have hindex : (BitVec.ofNat 8 k).setWidth 32 = BitVec.ofNat 32 k := by
    have := h.fits
    bv_omega
  rw [State.dataAddress, h.extensionBase, h.loadOffset, h.index, hindex]

/-- The state after the first digit of a payload byte (R160). -/
def State.firstPayloadDigit (s : State) (n : Nibble) : State := { s.takeDigit with
  pendingByte := insertDigit s.pendingByte n 1, result := Result.returns .continue_ }

/-- The state after the two digits of a payload byte `b`, with `m` bytes still to come. -/
def State.byteTaken (s : State) (b : Byte) (st : Status) (rest : List SinkResponse) (m : Nat) : State :=
  (s.firstPayloadDigit (b.extractLsb' 4 4)).takeDigit.delivered b st rest (2 * m)

/-- A delivered byte leaves the rest of the record to come. -/
theorem Delivery.Pending.byteTaken (h : d.Pending k (b :: dd) (st :: sts) s) :
    d.Pending (k + 1) dd sts (s.byteTaken b st (sts.map .answers ++ d.sinkScript) dd.length) := by
  have hfits : k + (dd.length + 1) < 256 := h.fits
  have hphase : s.phase = .awaitPayload := h.phase
  have hdigits : s.remainingDigits.toNat = 2 * (dd.length + 1) := h.digits
  exact {
    fault := h.fault
    bound := h.bound
    recType := h.recType
    extensionBase := h.extensionBase
    loadOffset := h.loadOffset
    index := by
      change s.recordByteIndex + 1 = _
      rw [h.index]
      bv_omega
    fits := by omega
    answers := Nat.succ.inj h.answers
    sinkScript := rfl
    sinkLog := by
      rw [← h.sinkLog, dataRequests, ← h.dataAddress]
      exact List.append_assoc s.sinkLog [⟨s.dataAddress, b⟩] _
    sum := h.sum
    phase := by
      change (if 2 * dd.length = 0 then .awaitChecksum else s.phase) = _
      rw [hphase]
      simp
    digits := by
      change (if 2 * dd.length = 0 then 2 else s.remainingDigits - 1 - 1).toNat = _
      by_cases hlast : dd.length = 0
      · simp [hlast]
      · rw [if_neg (by omega), if_neg hlast]
        bv_omega }

/-- The two characters of a payload byte deliver it (R160, R165). -/
theorem Delivery.Pending.feeds_byte (h : d.Pending k (b :: dd) (st :: sts) s) (hP : P .continue_)
    (hst : ∀ w, P (statusOnPort w st)) :
    Feeds P (byteText b) s (s.byteTaken b st (sts.map .answers ++ d.sinkScript) dd.length) := by
  have hfits : k + (dd.length + 1) < 256 := h.fits
  have hdigits : s.remainingDigits.toNat = 2 * dd.length + 1 + 1 := h.digits
  have hcount : (s.firstPayloadDigit (b.extractLsb' 4 4)).remainingDigits.toNat = 2 * dd.length + 1 := by
    change (s.remainingDigits - 1).toNat = _
    bv_omega
  have hhigh : Takes (hexChar (b.extractLsb' 4 4)) s (s.firstPayloadDigit (b.extractLsb' 4 4)) :=
    takes_hexChar h.fault h.phase rfl hdigits fun _ => payloadDigit_first (by omega)
  refine .cons hhigh rfl hP (.cons ?_ rfl (hst _) .nil)
  exact takes_hexChar h.fault h.phase rfl hcount fun _ => payloadDigit_delivered (by omega) h.recType h.bound
    (insertDigit_byte s.pendingByte b) h.sinkScript

/-- The whole payload of a data record, byte by byte. -/
theorem Delivery.Pending.feeds_payload (h : d.Pending k dd sts s) (hP : P .continue_)
    (hsts : ∀ st ∈ sts, ∀ w, P (statusOnPort w st)) :
    ∃ t k', Feeds P (dd.flatMap byteText) s t ∧ d.Pending k' [] [] t := by
  induction dd generalizing k sts s with
  | nil =>
    obtain rfl : sts = [] := List.eq_nil_of_length_eq_zero h.answers
    exact ⟨s, k, .nil, h⟩
  | cons b dd ih =>
    cases sts with
    | nil => cases h.answers
    | cons st sts =>
      obtain ⟨hst, hsts⟩ := List.forall_mem_cons.1 hsts
      obtain ⟨t, k', hfeeds, ht⟩ := ih h.byteTaken hsts
      exact ⟨t, k', (h.feeds_byte hP hst).append hfeeds, ht⟩

end

/-! ### The whole record -/

/-- The two's complement of the sum is the checksum exactly when sum and checksum add to 0 (R195). -/
theorem finalize_eq_iff (sum target : Byte) : finalize sum = target ↔ sum + target = 0 := by
  have hneg : finalize sum = -sum := (BitVec.neg_eq_not_add sum).symm
  rw [hneg, neg_eq_iff_add_eq_zero]

/-- A data record ends with Continue or ChecksumError (R193, R194). -/
theorem recordStatus_data (sum target : Byte) :
    recordStatus 0x00 sum target = if sum + target = 0 then .continue_ else .checksumError := by
  rw [recordStatus, if_neg (by decide), ite_not]
  simp only [finalize_eq_iff]

/-- What a data record fed from `s` is to bring about. -/
def deliveryFrom (s : State) (aaaa : BitVec 16) (dd : List Byte) (rest : List SinkResponse) : Delivery where
  extensionBase := s.extensionBase
  loadOffset := aaaa
  sinkLog := s.sinkLog ++ dataRequests (s.extensionBase + aaaa.setWidth 32) 0 dd
  sum := recordSum aaaa 0x00 dd
  sinkScript := rest

theorem recordSum_eq_foldl (aaaa : BitVec 16) (tt : Byte) (dd : List Byte) :
    recordSum aaaa tt dd =
      dd.foldl (· + ·) (BitVec.ofNat 8 dd.length + aaaa.extractLsb' 8 8 + aaaa.extractLsb' 0 8 + tt) := by
  have : Std.Associative (α := Byte) (· + ·) := ⟨BitVec.add_assoc⟩
  rw [recordSum, ← List.foldl_assoc (op := (· + ·)), add_zero]

/-- After the header of a data record all its bytes are to come. -/
theorem pending_afterHeader {s : State} {aaaa : BitVec 16} {dd : List Byte} {sts : List Status}
    {rest : List SinkResponse} (hfault : s.fault = none) (hbound : s.cbBound = true) (hlen : dd.length < 256)
    (hsts : sts.length = dd.length) (hscript : s.sinkScript = sts.map .answers ++ rest) :
    (deliveryFrom s aaaa dd rest).Pending 0 dd sts (afterHeader s (BitVec.ofNat 8 dd.length) aaaa 0x00) := by
  have hzero : BitVec.ofNat 8 dd.length = 0 ↔ dd.length = 0 := by bv_omega
  exact {
    fault := hfault
    bound := hbound
    recType := rfl
    extensionBase := rfl
    loadOffset := rfl
    index := rfl
    fits := by omega
    answers := hsts
    sinkScript := hscript
    sinkLog := rfl
    sum := by
      rw [afterHeader_runningChecksum, ← recordSum_eq_foldl]
      rfl
    phase := by
      change (if BitVec.ofNat 8 dd.length ≠ 0 then Phase.awaitPayload else .awaitChecksum) = _
      rw [ite_not]
      simp only [hzero]
    digits := by
      change (if BitVec.ofNat 8 dd.length ≠ 0 then payloadDigits (BitVec.ofNat 8 dd.length) else 2).toNat = _
      rw [ite_not]
      simp only [hzero, apply_ite BitVec.toNat, payloadDigits_toNat, BitVec.toNat_ofNat, Nat.mod_eq_of_lt hlen]
      rfl }

/-- The text of a record without its last character. -/
def recordInit (aaaa : BitVec 16) (tt : Byte) (dd : List Byte) (cc : Byte) : List Byte :=
  markChar :: byteText (BitVec.ofNat 8 dd.length) ++ byteText (aaaa.extractLsb' 8 8) ++
    byteText (aaaa.extractLsb' 0 8) ++ byteText tt ++ dd.flatMap byteText ++ [hexChar (cc.extractLsb' 4 4)]

theorem recordText_eq (aaaa : BitVec 16) (tt : Byte) (dd : List Byte) (cc : Byte) :
    recordText aaaa tt dd cc = recordInit aaaa tt dd cc ++ [hexChar (cc.extractLsb' 0 4)] := by
  simp [recordText, recordInit, byteText]

/-- The data record of `d` with the checksum `cc` has ended in `t` (R193, R196). -/
structure Delivery.Done (d : Delivery) (cc : Byte) (t : State) : Prop where
  phase : t.phase = .awaitMark
  fault : t.fault = none
  sinkScript : t.sinkScript = d.sinkScript
  extensionBase : t.extensionBase = d.extensionBase
  sinkLog : t.sinkLog = d.sinkLog
  result : t.result = Result.returns (if d.sum + cc = 0 then .continue_ else .checksumError)

theorem Delivery.Pending.takes_checksum {d : Delivery} {k : Nat} {s : State} (h : d.Pending k [] [] s) (cc : Byte) :
    ∃ u t, Takes (hexChar (cc.extractLsb' 4 4)) s u ∧ u.result = Result.returns .continue_ ∧
      Takes (hexChar (cc.extractLsb' 0 4)) u t ∧ d.Done cc t := by
  have hdigits : s.remainingDigits = 2 := BitVec.eq_of_toNat_eq h.digits
  obtain ⟨u, hhigh, hu, hlow⟩ := Machine.takes_checksum h.fault h.phase hdigits cc
  refine ⟨u, _, hhigh, hu, hlow, ?_⟩
  exact {
    phase := rfl
    fault := h.fault
    sinkScript := h.sinkScript
    extensionBase := h.extensionBase
    sinkLog := by rw [← h.sinkLog]; exact (List.append_nil _).symm
    result := by
      have hsum : s.runningChecksum = d.sum := h.sum
      rw [h.recType, recordStatus_data, hsum] }

/-- A data record fed from AwaitMark: every character but the last returns a status that meets `P`, and the last one
leaves the record done. -/
theorem feeds_dataRecord {P : Status → Prop} {s : State} (aaaa : BitVec 16) {dd : List Byte} (cc : Byte)
    {sts : List Status} {rest : List SinkResponse} (hfault : s.fault = none) (hp : s.phase = .awaitMark)
    (hbound : s.cbBound = true) (hlen : dd.length < 256) (hcount : sts.length = dd.length)
    (hscript : s.sinkScript = sts.map .answers ++ rest) (hP : P .continue_)
    (hsts : ∀ st ∈ sts, ∀ w, P (statusOnPort w st)) :
    ∃ u t, Feeds P (recordInit aaaa 0x00 dd cc) s u ∧ Takes (hexChar (cc.extractLsb' 0 4)) u t ∧
      (deliveryFrom s aaaa dd rest).Done cc t := by
  have hheader := feeds_header hfault hP hp (BitVec.ofNat 8 dd.length) aaaa 0x00
  obtain ⟨v, _, hpayload, hv⟩ :=
    (pending_afterHeader (aaaa := aaaa) hfault hbound hlen hcount hscript).feeds_payload hP hsts
  obtain ⟨u, t, hhigh, hu, hlow, hdone⟩ := hv.takes_checksum cc
  refine ⟨u, t, (hheader.append hpayload).append (.cons hhigh ?_ hP .nil), hlow, hdone⟩
  rw [hu]
  rfl

/-- A status that is Continue if the sink answers Continue to every byte. -/
def ContinueIfAll (sts : List Status) (st : Status) : Prop := (∀ st' ∈ sts, st' = .continue_) → st = .continue_

/-- The port keeps an answer Continue as it is (R80). -/
theorem continueIfAll_statusOnPort {sts : List Status} {st : Status} (h : st ∈ sts) (w : Nat) :
    ContinueIfAll sts (statusOnPort w st) := fun hall => by
  rw [hall st h]
  rfl

/-- Settles O53, by the record's characters one after the other: the header, the payload by induction on its bytes,
and the checksum. -/
theorem dataRecordDelivered : Obligations.DataRecordDelivered := by
  intro s aaaa dd cc sts rest text htext hfault hp hbound hlen hcount hscript
  obtain ⟨u, t, hinit, hlast, hdone⟩ := feeds_dataRecord (P := ContinueIfAll sts) aaaa cc hfault hp hbound hlen hcount
    hscript (fun _ => rfl) fun _ => continueIfAll_statusOnPort
  rw [recordText_eq] at htext
  subst htext
  refine ⟨⟨t.fed [], ?all, hdone.phase, hdone.fault, rfl, hdone.sinkScript, hdone.extensionBase, hdone.sinkLog,
    hdone.result⟩, fun hall k hk hlt => ?beginning⟩
  case all =>
    rw [List.length_append]
    exact (hinit.run_fed _ 1).trans (run_succ_of_step (M := core) 0 (hlast []))
  case beginning =>
    have hle : k ≤ (recordInit aaaa 0x00 dd cc).length := by simpa [Nat.lt_succ_iff] using hlt
    obtain ⟨v, st, hfed, hst, hcontinue⟩ := hinit.take hk hle
    have hrun := hfed.run_fed ((recordInit aaaa 0x00 dd cc).drop k ++ [hexChar (cc.extractLsb' 0 4)]) 0
    rw [← List.append_assoc, List.take_append_drop, List.length_take_of_le hle, Nat.add_zero] at hrun
    exact ⟨_, hrun, by rw [← hcontinue hall]; exact hst⟩

end Sys2Proof.Machine
end

section
/-! What a command does with the result port: it never reads it back (R111), and writes one status for a FEED and none
for NOP, INIT and BEGIN (R84, R108); and all that the line ends, NOP, INIT and BEGIN do (40_interface_ops.md). -/

namespace Sys2Proof.Machine

/-! ### The result port is not read -/

/-- The outcome of the rule does not depend on the result port of the state it runs from (R111). -/
def IgnoresResult (rule : State → Except Stop State) : Prop :=
  ∀ (s : State) (r : Result), rule { s with result := r } = rule s

theorem IgnoresResult.runCommand {rule : State → Except Stop State} (h : IgnoresResult rule) (s : State) (r : Result) :
    runCommand rule { s with result := r } = runCommand rule s := by
  simp only [Machine.runCommand, h s r]
  rfl

/-- The sink is asked the same and answers the same; the port stays as it was until the FEED returns. -/
theorem sinkWrite_with_result (addr : Addr) (data : Byte) (s : State) (r : Result) :
    sinkWrite addr data { s with result := r } =
      (sinkWrite addr data s).map fun (sent, st) => ({ sent with result := r }, st) := by
  simp only [sinkWrite]
  split <;> rfl

theorem dataByte_ignoresResult : IgnoresResult dataByte := by
  intro s r
  by_cases hb : s.cbBound = true
  · rw [dataByte_bound hb, dataByte_bound (by exact hb), sinkWrite_with_result]
    change Except.map _ (Except.map _ (sinkWrite s.dataAddress s.pendingByte s)) = _
    cases sinkWrite s.dataAddress s.pendingByte s <;> rfl
  · rw [Bool.not_eq_true] at hb
    rw [dataByte_unbound hb, dataByte_unbound (by exact hb)]

theorem byteComplete_ignoresResult : IgnoresResult byteComplete := by
  intro s r
  by_cases h0 : s.recType = 0x00
  · rw [byteComplete_data h0, byteComplete_data (by exact h0)]
    exact dataByte_ignoresResult (s.accumulate s.pendingByte) r
  by_cases he : s.recType = 0x02 ∨ s.recType = 0x04
  · rw [byteComplete_extension he, byteComplete_extension (by exact he), extPlace_eq, extPlace_eq]
    rfl
  · obtain ⟨h2, h4⟩ := not_or.1 he
    rw [byteComplete_other h0 h2 h4, byteComplete_other (by exact h0) (by exact h2) (by exact h4)]
    rfl

theorem payloadDigit_ignoresResult (n : Nibble) (k : Nat) : IgnoresResult (payloadDigit n k) := by
  intro s r
  obtain hk | hk := Nat.mod_two_eq_zero_or_one k
  · rw [payloadDigit_second hk, payloadDigit_second hk]
    exact congrArg _ (byteComplete_ignoresResult { s with pendingByte := insertDigit s.pendingByte n 0 } r)
  · rw [payloadDigit_first hk, payloadDigit_first hk]
    rfl

/-- A digit of every field but the payload writes its own result at once, whether it is the field's last or not. -/
theorem digitRule_ignoresResult {p : Phase} (hp : p.isDigit = true) (n : Nibble) (k : Nat) :
    IgnoresResult (digitRule p n k) := by
  intro s r
  cases p with
  | awaitLength => by_cases hk : k = 0 <;> simp only [digitRule, lengthDigit, hk] <;> rfl
  | awaitAddress => by_cases hk : k = 0 <;> simp only [digitRule, addressDigit, hk] <;> rfl
  | awaitType =>
    by_cases hk : k = 0
    · subst hk
      simp only [digitRule, typeDigit_last]
    · simp only [digitRule, typeDigit, hk]
      rfl
  | awaitPayload => exact payloadDigit_ignoresResult n k s r
  | awaitChecksum => by_cases hk : k = 0 <;> simp only [digitRule, checksumDigit, hk] <;> rfl
  | awaitMark => cases hp
  | reserved6 => cases hp
  | reserved7 => cases hp

theorem digitStep_ignoresResult {rule : Nibble → Nat → State → Except Stop State}
    (h : ∀ n k, IgnoresResult (rule n k)) (b : Byte) : IgnoresResult (digitStep rule b) := by
  intro s r
  by_cases hr : s.remainingDigits = 0
  · rw [digitStep_zero hr, digitStep_zero (by exact hr)]
  cases hn : nibble b with
  | some n =>
    rw [digitStep_digit hr hn, digitStep_digit (by exact hr) hn]
    exact h n s.takeDigit.slot s.takeDigit r
  | none =>
    cases hp : s.params.slotPolicy with
    | retain =>
      rw [digitStep_retain hr hn hp, digitStep_retain (by exact hr) hn (by exact hp)]
      rfl
    | consume =>
      rw [digitStep_consume hr hn hp, digitStep_consume (by exact hr) hn (by exact hp)]
      rfl

theorem markStep_ignoresResult (b : Byte) : IgnoresResult (markStep b) := by
  intro s r
  by_cases hb : b = markChar <;> simp only [markStep, hb] <;> rfl

/-- The phases as FEED's dispatch tells them apart (R103). -/
theorem Phase.kinds (p : Phase) : p = .awaitMark ∨ p.isDigit = true ∨ p = .reserved6 ∨ p = .reserved7 := by
  cases p <;> simp [Phase.isDigit]

theorem feed_ignoresResult (b : Byte) : IgnoresResult (feed b) := by
  intro s r
  cases hl : isLineEnd b with
  | true =>
    rw [feed_lineEnd hl, feed_lineEnd hl]
    rfl
  | false =>
    obtain hm | hd | hres := s.phase.kinds
    · rw [feed_mark hl hm, feed_mark hl (by exact hm)]
      exact markStep_ignoresResult b s r
    · rw [feed_digitPhase hl hd, feed_digitPhase hl (by exact hd)]
      exact digitStep_ignoresResult (digitRule_ignoresResult hd) b s r
    · rw [feed_reserved hl hres, feed_reserved hl (by exact hres)]

/-- Every command runs one rule, and the rule ignores the result port. -/
theorem exec_rule_ignoresResult (i : Instr) : ∃ rule, IgnoresResult rule ∧ ∀ s, exec i s = runCommand rule s := by
  cases i with
  | nop b => exact ⟨_, fun _ _ => rfl, exec_nop b⟩
  | init b => exact ⟨_, fun _ _ => rfl, exec_init b⟩
  | begin b => exact ⟨_, fun _ _ => rfl, exec_begin b⟩
  | _ => exact ⟨_, feed_ignoresResult _, exec_feed rfl⟩

/-! ### What is written to the result port -/

section
variable {b : Byte} {n : Nibble} {k : Nat} {s t : State}

/-- Every digit rule returns a status (R108). -/
theorem digitRule_returns {p : Phase} (hp : p.isDigit = true) (h : digitRule p n k s = .ok t) :
    ∃ st, t.result = Result.returns st := by
  cases p with
  | awaitLength => obtain ⟨-, rfl⟩ | ⟨-, rfl⟩ := lengthDigit_cases h <;> exact ⟨_, rfl⟩
  | awaitAddress => obtain ⟨-, rfl⟩ | ⟨-, rfl⟩ := addressDigit_cases h <;> exact ⟨_, rfl⟩
  | awaitType => obtain ⟨-, rfl⟩ | ⟨-, _, -, rfl⟩ := typeDigit_cases h <;> exact ⟨_, rfl⟩
  | awaitPayload => obtain ⟨-, rfl⟩ | ⟨-, _, _, _, _, _, _, rfl, -⟩ := payloadDigit_cases h <;> exact ⟨_, rfl⟩
  | awaitChecksum => obtain ⟨-, rfl⟩ | ⟨-, rfl⟩ := checksumDigit_cases h <;> exact ⟨_, rfl⟩
  | awaitMark => cases hp
  | reserved6 => cases hp
  | reserved7 => cases hp

/-- A FEED that ends without a stop returns a status (R108). -/
theorem feed_ok_status_isSome (h : feed b s = .ok t) : t.result.status.isSome = true := by
  obtain ⟨-, rfl⟩ | ⟨-, -, -, rfl⟩ | ⟨-, -, -, rfl⟩ | ⟨-, -, -, -, rfl⟩ | ⟨-, hp, -, n, -, hrule⟩ := feed_ok_cases h
  · rfl
  · rfl
  · rfl
  · rfl
  · obtain ⟨st, hst⟩ := digitRule_returns hp hrule
    rw [hst]
    rfl

end

/-- Settles O35: the rule of every command ignores the result port, FEED's branch by branch. -/
theorem resultNeverReadBack : Obligations.ResultNeverReadBack := by
  intro i s r
  obtain ⟨rule, hrule, hexec⟩ := exec_rule_ignoresResult i
  rw [hexec, hexec, hrule.runCommand]

/-- Settles O37: NOP, INIT and BEGIN empty the port, a FEED that ends returns a status, and a fault is excluded. -/
theorem oneStatusPerFeed : Obligations.OneStatusPerFeed := by
  intro i s t h hfault
  obtain ⟨-, ⟨b, rfl, rfl⟩ | ⟨b, rfl, rfl⟩ | ⟨b, rfl, rfl⟩ | ⟨hf, hok | ⟨q, -, rfl⟩⟩⟩ := exec_next_cases h
  · exact ⟨nofun, fun _ => rfl⟩
  · exact ⟨nofun, fun _ => rfl⟩
  · exact ⟨nofun, fun _ => rfl⟩
  · exact ⟨fun _ => feed_ok_status_isSome hok, fun hnot => absurd hf (by simp [hnot])⟩
  · cases hfault

/-! ### Line ends, NOP, INIT and BEGIN -/

/-- A FEED of a line end returns Continue and leaves the rest of the state (R104). -/
theorem exec_lineEnd {i : Instr} {s : State} (hf : i.isFeed = true) (hl : isLineEnd i.byte = true)
    (hfault : s.fault = none) : exec i s = .next { s with result := Result.returns .continue_ } := by
  rw [exec_feed hf]
  exact runCommand_ok hfault (feed_lineEnd hl)

/-- Settles O18: both commands feed a line end, before FEED looks at the phase or the count. -/
theorem lineEndsIgnored : Obligations.LineEndsIgnored := by
  refine ⟨decodeEncodeAgree .feedCr rfl, decodeEncodeAgree .feedLf rfl, ?_⟩
  rintro i s (rfl | rfl) hfault
  · exact exec_lineEnd rfl rfl hfault
  · exact exec_lineEnd rfl rfl hfault

/-- Settles O15, by the command's encoding and its rule. -/
theorem nopChangesNothing : Obligations.NopChangesNothing := fun b s =>
  ⟨decodeEncodeAgree (.nop b) rfl, fun hfault => (exec_nop b s).trans (runCommand_ok hfault rfl)⟩

/-- Settles O16, by the command's encoding and its rule. -/
theorem initBindsSink : Obligations.InitBindsSink := fun b s =>
  ⟨decodeEncodeAgree (.init b) rfl, fun hfault => (exec_init b s).trans (runCommand_ok hfault rfl)⟩

/-- Settles O17, by the command's encoding and its rule. -/
theorem beginStartsStream : Obligations.BeginStartsStream := fun b s =>
  ⟨decodeEncodeAgree (.begin b) rfl, fun hfault => (exec_begin b s).trans (runCommand_ok hfault rfl)⟩

end Sys2Proof.Machine
end

section
/-! The nibble parser and the digit step (41_nibble_parser.md R120 to R129): the nibble of each range of characters, an
invalid character, a count of 0, the first digit of a payload byte, and why an invalid character can be deleted. -/

namespace Sys2Proof.Machine

/-! ### The nibble parser -/

section
variable {b : Byte}

theorem nibble_decimal (h : 0x30 ≤ b ∧ b ≤ 0x39) : nibble b = some ((b - 0x30).setWidth 4) := if_pos h

theorem nibble_upper (h : 0x41 ≤ b ∧ b ≤ 0x46) : nibble b = some ((b - 0x41 + 10).setWidth 4) := by
  have hdecimal : ¬(0x30 ≤ b ∧ b ≤ 0x39) := by bv_omega
  rw [nibble, if_neg hdecimal, if_pos h]

theorem nibble_lower (h : 0x61 ≤ b ∧ b ≤ 0x66) : nibble b = some ((b - 0x61 + 10).setWidth 4) := by
  have hdecimal : ¬(0x30 ≤ b ∧ b ≤ 0x39) := by bv_omega
  have hupper : ¬(0x41 ≤ b ∧ b ≤ 0x46) := by bv_omega
  rw [nibble, if_neg hdecimal, if_neg hupper, if_pos h]

end

/-- Settles O7, by the branches of the parser: a letter stands 10 above its place in its range. -/
theorem nibbleMapping : Obligations.NibbleMapping := by
  intro b
  refine ⟨fun h => ?decimal, fun h => ?upper, fun h => ?lower, fun ⟨hdecimal, hupper, hlower⟩ => ?other⟩
  case decimal =>
    rw [nibble_decimal h, Option.map_some]
    exact congrArg some (by bv_omega)
  case upper =>
    rw [nibble_upper h, Option.map_some]
    exact congrArg some (by bv_omega)
  case lower =>
    rw [nibble_lower h, Option.map_some]
    exact congrArg some (by bv_omega)
  case other => rw [nibble, if_neg hdecimal, if_neg hupper, if_neg hlower]

/-- Settles O8, by the bits of `insertDigit`, which are the same where the slot reaches past the field. -/
theorem insertDigitWritesOneSlot : Obligations.InsertDigitWritesOneSlot :=
  fun _ f n p _ _ hk => getLsbD_insertDigit f n p hk

/-! ### The digit step -/

/-- Settles O21: FEED dispatches to the digit step, whose branch for a byte without a nibble is the slot policy's. -/
theorem invalidCharacterBySlotPolicy : Obligations.InvalidCharacterBySlotPolicy := by
  intro i s hw hi hfault hd hr
  obtain ⟨hf, hn, hl⟩ := Instr.invalidDigit_byte hw hi
  rw [exec_feed hf]
  refine ⟨fun hretain => runCommand_ok hfault ?retain, fun hconsume => runCommand_ok hfault ?consume⟩
  case retain => exact (feed_digitPhase hl hd).trans (digitStep_retain hr hn hretain)
  case consume => exact (feed_digitPhase hl hd).trans (digitStep_consume hr hn hconsume)

/-- Settles O22: the digit step looks at the count before the character; CR, LF and BEGIN never reach it. -/
theorem digitStepAtZeroFaults : Obligations.DigitStepAtZeroFaults := by
  intro s hfault hd hr
  refine ⟨fun i hw hf hcr hlf => ?digit, exec_lineEnd rfl rfl hfault, exec_lineEnd rfl rfl hfault, fun b => ?begin⟩
  case digit =>
    rw [exec_feed hf]
    exact runCommand_fault hfault
      ((feed_digitPhase (Instr.isLineEnd_byte_eq_false hw hf hcr hlf) hd).trans (digitStep_zero hr))
  case begin => exact ⟨_, (beginStartsStream b s).2 hfault, rfl, hfault⟩

/-- Settles O27: the count after the decrement is odd, so the digit is the first of its byte (R129). -/
theorem payloadFirstDigit : Obligations.PayloadFirstDigit := by
  intro i n s hi hfault hp hr heven
  have hodd : (s.remainingDigits.toNat - 1) % 2 = 1 := by bv_omega
  have hrule : digitRule s.phase = payloadDigit := by rw [hp]; rfl
  rw [exec_hexDigit hi (by rw [hp]; rfl) hr]
  exact runCommand_ok hfault (by rw [hrule]; exact payloadDigit_first hodd)

/-! ### Streams of commands -/

section
variable {i : Instr} {before : List Instr} {s t : State}

theorem runAll_cons_of_next (h : exec i s = .next t) (after : List Instr) :
    runAll (i :: after) s = runAll after t := by
  rw [runAll, h]

theorem runAll_append_of_next (h : runAll before s = .next t) (after : List Instr) :
    runAll (before ++ after) s = runAll after t := by
  induction before generalizing s with
  | nil => cases h; rfl
  | cons i before ih =>
    rw [List.cons_append]
    rw [runAll] at h ⊢
    cases hexec : exec i s with
    | next u => rw [hexec] at h; exact ih h
    | fault f => rw [hexec] at h; cases h
    | refused q => rw [hexec] at h; cases h

end

/-- A stream that goes on runs the same whatever the result port held before it (R111). -/
theorem runAll_cons_with_result (next : Instr) (after : List Instr) (s : State) (r : Result) :
    runAll (next :: after) { s with result := r } = runAll (next :: after) s := by
  rw [runAll, runAll, resultNeverReadBack next s r]

/-- Settles O51: the invalid character writes only the result port (R125), which the next command does not read. -/
theorem invalidCharactersDeletable : Obligations.InvalidCharactersDeletable := by
  intro before after bad next s t hw hbad hbefore hfault hretain hd hr
  have hexec : exec bad t = .next { t with result := Result.returns .invalidInput } :=
    (invalidCharacterBySlotPolicy bad t hw hbad hfault hd hr).1 hretain
  constructor
  · rw [runAll_append_of_next hbefore]
    exact runAll_cons_of_next hexec []
  · rw [runAll_append_of_next hbefore, runAll_append_of_next hbefore, runAll_cons_of_next hexec]
    exact runAll_cons_with_result next after t _

end Sys2Proof.Machine
end

section
/-! The header phases of the record state machine (42_record_fsm.md): AwaitMark, and the digits of the length, the load
offset and the type. -/

namespace Sys2Proof.Machine

section
variable {i : Instr} {n : Nibble} {s : State}

/-! ### AwaitMark -/

/-- In AwaitMark a character that is no mark and no line end is ignored (R140). -/
theorem exec_awaitMark_ignored (hf : i.isFeed = true) (hl : isLineEnd i.byte = false) (hmark : i.byte ≠ markChar)
    (hfault : s.fault = none) (hp : s.phase = .awaitMark) :
    exec i s = .next { s with result := Result.returns .continue_ } := by
  rw [exec_feed hf]
  exact runCommand_ok hfault ((feed_mark hl hp).trans (if_neg hmark))

/-- Settles O19: neither a hex character nor one of the class OTHER is the mark or a line end. -/
theorem awaitMarkIgnoresOtherBytes : Obligations.AwaitMarkIgnoresOtherBytes := by
  rintro i s hw (hhex | ⟨b, rfl⟩) hfault hp
  · obtain ⟨n, hn⟩ := Option.isSome_iff_exists.1 hhex
    obtain ⟨hf, -, hl, hmark⟩ := Instr.hexDigit_byte hn
    exact exec_awaitMark_ignored hf hl hmark hfault hp
  · obtain ⟨-, hl, hmark⟩ := isOtherByte_spec b hw
    exact exec_awaitMark_ignored rfl hl hmark hfault hp

/-- Settles O20: FEED dispatches to AwaitMark's step, whose branch for the mark starts the record. -/
theorem markStartsRecord : Obligations.MarkStartsRecord := by
  intro s hfault hp
  rw [exec_feed rfl]
  exact runCommand_ok hfault ((feed_mark rfl hp).trans (if_pos rfl))

/-! ### The digits of a field -/

section
variable {p : Phase} {r : Nat} {t : State}

/-- A hex digit whose rule ends without a stop has the state of the rule as its next state (R124). -/
theorem exec_digit (hi : i.hexDigit = some n) (hfault : s.fault = none) (hp : s.phase = p) (hd : p.isDigit = true)
    (hr : s.remainingDigits.toNat = r + 1) (hrule : digitRule p n r s.takeDigit = .ok t) : exec i s = .next t := by
  subst hp
  have hcount : s.remainingDigits ≠ 0 := by rintro h0; simp [h0] at hr
  rw [exec_hexDigit hi hd hcount]
  exact runCommand_ok hfault (by rw [hr]; exact hrule)

/-- The last digit of a field runs its rule in slot 0 (R124). -/
theorem exec_digit_last (hi : i.hexDigit = some n) (hfault : s.fault = none) (hp : s.phase = p)
    (hd : p.isDigit = true) (hlast : s.remainingDigits = 1) (hrule : digitRule p n 0 s.takeDigit = .ok t) :
    exec i s = .next t :=
  exec_digit hi hfault hp hd (by rw [hlast]; rfl) hrule

/-- A digit before the last of its field leaves a positive count. -/
theorem exists_toNat_eq_add_two {d : BitVec 9} (h0 : d ≠ 0) (h1 : d ≠ 1) : ∃ r, d.toNat = r + 1 + 1 :=
  ⟨d.toNat - 2, by bv_omega⟩

end

/-- Settles O24: the rule of `LL` in the slot of the digit, or in slot 0, where it also ends the field. -/
theorem lengthDigits : Obligations.LengthDigits := by
  intro i n s hi hfault hp
  refine ⟨fun h0 h1 => ?before, fun hlast => ?last⟩
  case before =>
    obtain ⟨r, hr⟩ := exists_toNat_eq_add_two h0 h1
    rw [hr]
    exact exec_digit hi hfault hp rfl hr rfl
  case last => exact exec_digit_last hi hfault hp rfl hlast (lengthDigit_last rfl)

/-- Settles O25: the rule of `AAAA` in the slot of the digit, or in slot 0, where it also ends the field. -/
theorem addressDigits : Obligations.AddressDigits := by
  intro i n s hi hfault hp
  refine ⟨fun h0 h1 => ?before, fun hlast => ?last⟩
  case before =>
    obtain ⟨r, hr⟩ := exists_toNat_eq_add_two h0 h1
    rw [hr]
    exact exec_digit hi hfault hp rfl hr rfl
  case last => exact exec_digit_last hi hfault hp rfl hlast (addressDigit_last rfl)

/-! ### The end of the header -/

theorem isExtensionType_iff (tt : Byte) : isExtensionType tt = true ↔ tt = 0x02 ∨ tt = 0x04 := by
  simp [isExtensionType]

/-- The first slot of the extension tracker, by record type (R150). -/
theorem extensionInit_slot (tt : Byte) (k : BitVec 3) :
    (if isExtensionType tt then (if tt = 0x02 then 1 else 3) else k) =
      if tt = 0x02 then 1 else if tt = 0x04 then 3 else k := by
  by_cases hsegment : tt = 0x02
  · simp [hsegment, isExtensionType]
  · simp only [isExtensionType_iff, hsegment, false_or, if_false]

theorem payloadDigits_eq_ofNat (length : Byte) : payloadDigits length = BitVec.ofNat 9 (2 * length.toNat) := by
  rw [← payloadDigits_toNat, BitVec.ofNat_toNat, BitVec.setWidth_eq]

/-- The end of the header with the extension types, the payload and its count written out (R149, R150). -/
theorem typed_eq (s : State) (tt : Byte) : s.typed tt = { s with
    recType := tt
    runningChecksum := s.runningChecksum + tt
    extensionBase := if tt = 0x02 ∨ tt = 0x04 then 0 else s.extensionBase
    extensionBytePos := if tt = 0x02 then 1 else if tt = 0x04 then 3 else s.extensionBytePos
    phase := if s.length = 0 then .awaitChecksum else .awaitPayload
    remainingDigits := if s.length = 0 then 2 else BitVec.ofNat 9 (2 * s.length.toNat)
    result := Result.returns .continue_ } := by
  rw [State.typed, extensionInit_slot, payloadDigits_eq_ofNat]
  simp only [isExtensionType_iff, ite_not]

/-- Settles O26: the rule of `TT` in the slot of the digit, or in slot 0, where it also ends the header. -/
theorem typeDigits : Obligations.TypeDigits := by
  intro i n s hi hfault hp
  refine ⟨fun h0 h1 => ?before, fun hlast tt htt => ?last⟩
  case before =>
    obtain ⟨r, hr⟩ := exists_toNat_eq_add_two h0 h1
    rw [hr]
    exact exec_digit hi hfault hp rfl hr rfl
  case last =>
    have hrule : digitRule .awaitType n 0 s.takeDigit = .ok (s.takeDigit.typed tt) := typeDigit_last_typed htt.symm
    rw [typed_eq] at hrule
    exact exec_digit_last hi hfault hp rfl hlast hrule

end

end Sys2Proof.Machine
end

section
/-! An extension record fed in full (42_record_fsm.md R150; 43_payload_extension.md R170 to R172): its payload bytes,
and the base they make. -/

namespace Sys2Proof.Machine

section
variable {P : Status → Prop} {b : Byte} {n : Nibble} {r m : Nat} {s : State}

/-! ### The bytes of the payload -/

/-- The state after the second digit of a payload byte `b` of an extension record (R162, R170). -/
def State.extended (s : State) (b : Byte) (r : Nat) : State := { s with
  pendingByte := b
  runningChecksum := s.runningChecksum + b
  extensionBase :=
    if s.extensionBytePos ≤ 3 then
      (if s.recType = 0x02 ∧ s.extensionBytePos = 0 then
          (s.extensionBase ||| byteAtSlot b s.extensionBytePos) <<< 4
        else s.extensionBase ||| byteAtSlot b s.extensionBytePos)
    else s.extensionBase
  extensionBytePos := if s.extensionBytePos ≤ 3 then s.extensionBytePos - 1 else s.extensionBytePos
  phase := if r = 0 then .awaitChecksum else s.phase
  remainingDigits := if r = 0 then 2 else s.remainingDigits
  result := Result.returns .continue_ }

theorem payloadDigit_extended (hr : r % 2 = 0) (htype : s.recType = 0x02 ∨ s.recType = 0x04)
    (hb : insertDigit s.pendingByte n 0 = b) : payloadDigit n r s = .ok (s.extended b r) := by
  subst hb
  rw [payloadDigit_extension hr htype, extPlace_eq]
  rfl

/-- The state after the two digits of a payload byte `b` of an extension record, with `m` bytes still to come. -/
def State.extensionByte (s : State) (b : Byte) (m : Nat) : State :=
  (s.firstPayloadDigit (b.extractLsb' 4 4)).takeDigit.extended b (2 * m)

/-- The two characters of a payload byte of an extension record (R160, R170). -/
theorem feeds_extensionByte (hfault : s.fault = none) (hP : P .continue_) (hp : s.phase = .awaitPayload)
    (htype : s.recType = 0x02 ∨ s.recType = 0x04) (hr : s.remainingDigits.toNat = 2 * m + 1 + 1) (b : Byte) :
    Feeds P (byteText b) s (s.extensionByte b m) := by
  have hcount : (s.firstPayloadDigit (b.extractLsb' 4 4)).remainingDigits.toNat = 2 * m + 1 := by
    change (s.remainingDigits - 1).toNat = _
    bv_omega
  have hhigh : Takes (hexChar (b.extractLsb' 4 4)) s (s.firstPayloadDigit (b.extractLsb' 4 4)) :=
    takes_hexChar hfault hp rfl hr fun _ => payloadDigit_first (by omega)
  refine .cons hhigh rfl hP (.cons ?_ rfl hP .nil)
  exact takes_hexChar hfault hp rfl hcount fun _ => payloadDigit_extended (r := 2 * m) (b := b) (by omega) htype
    (insertDigit_byte s.pendingByte b)

/-- A byte before the last takes two digits off the count (R160). -/
theorem extensionByte_remainingDigits_toNat (hm : m ≠ 0) (hr : s.remainingDigits.toNat = 2 * m + 1 + 1) (b : Byte) :
    (s.extensionByte b m).remainingDigits.toNat = 2 * m := by
  change (if 2 * m = 0 then 2 else s.remainingDigits - 1 - 1).toNat = _
  rw [if_neg (by omega)]
  bv_omega

/-- A byte in one of the slots 3 to 0 joins the base, which slot 0 of a segment also scales (R170, R171). -/
theorem extensionByte_extensionBase (hk : s.extensionBytePos ≤ 3) (b : Byte) (m : Nat) :
    (s.extensionByte b m).extensionBase =
      if s.recType = 0x02 ∧ s.extensionBytePos = 0 then
        (s.extensionBase ||| byteAtSlot b s.extensionBytePos) <<< 4
      else s.extensionBase ||| byteAtSlot b s.extensionBytePos :=
  if_pos hk

theorem extensionByte_extensionBytePos (hk : s.extensionBytePos ≤ 3) (b : Byte) (m : Nat) :
    (s.extensionByte b m).extensionBytePos = s.extensionBytePos - 1 :=
  if_pos hk

/-! ### The base of two bytes -/

/-- Two bytes placed in a cleared base, from slot `k + 1` down; slot 0 of a segment scales them (R170, R171). -/
theorem extensionBytes_extensionBase {k : BitVec 3} (hbase : s.extensionBase = 0) (hslot : s.extensionBytePos = k + 1)
    (hk : k ≤ 2) (b1 b0 : Byte) (m m' : Nat) :
    ((s.extensionByte b1 m).extensionByte b0 m').extensionBase =
      if s.recType = 0x02 ∧ k = 0 then (byteAtSlot b1 (k + 1) ||| byteAtSlot b0 k) <<< 4
      else byteAtSlot b1 (k + 1) ||| byteAtSlot b0 k := by
  have hplace : s.extensionBytePos ≤ 3 := by bv_omega
  have hscale : ¬(s.recType = 0x02 ∧ s.extensionBytePos = 0) := by rintro ⟨-, h0⟩; bv_omega
  have hfirst : (s.extensionByte b1 m).extensionBase = byteAtSlot b1 (k + 1) := by
    rw [extensionByte_extensionBase hplace, if_neg hscale, hbase, hslot]
    exact BitVec.zero_or
  have hnext : (s.extensionByte b1 m).extensionBytePos = k := by
    rw [extensionByte_extensionBytePos hplace, hslot]
    exact BitVec.add_sub_cancel k 1
  rw [extensionByte_extensionBase (by bv_omega), hfirst, hnext]
  rfl

/-- Two bytes in neighbouring slots of the base make one number of 16 bits (R11, R87). -/
theorem twoBytes_toNat (b1 b0 : Byte) :
    (b1.setWidth 32 <<< 8 ||| b0.setWidth 32 : Addr).toNat = b1.toNat * 256 + b0.toNat := by
  have hhigh : (b1.setWidth 32 <<< 8 : Addr).toNat = b1.toNat <<< 8 := by
    rw [Nat.shiftLeft_eq]
    bv_omega
  have hlow : (b0.setWidth 32 : Addr).toNat = b0.toNat := by bv_omega
  rw [BitVec.toNat_or, hhigh, hlow, ← Nat.shiftLeft_add_eq_or_of_lt b0.isLt, Nat.shiftLeft_eq]

/-- Slots 3 and 2 hold the upper half of the base (R170). -/
theorem upperSlots_toNat (b1 b0 : Byte) :
    (byteAtSlot b1 3 ||| byteAtSlot b0 2).toNat = (b1.toNat * 256 + b0.toNat) * 65536 := by
  have hshift : byteAtSlot b1 3 ||| byteAtSlot b0 2 = (b1.setWidth 32 <<< 8 ||| b0.setWidth 32) <<< 16 := by
    rw [BitVec.shiftLeft_or_distrib, ← BitVec.shiftLeft_add]
    rfl
  have hbytes := twoBytes_toNat b1 b0
  rw [hshift]
  bv_omega

/-- Slots 1 and 0, scaled by 16, hold a segment (R171). -/
theorem lowerSlots_scaled_toNat (b1 b0 : Byte) :
    ((byteAtSlot b1 1 ||| byteAtSlot b0 0) <<< 4).toNat = (b1.toNat * 256 + b0.toNat) * 16 := by
  have hshift : byteAtSlot b1 1 ||| byteAtSlot b0 0 = b1.setWidth 32 <<< 8 ||| b0.setWidth 32 := by
    simp [byteAtSlot]
  have hbytes := twoBytes_toNat b1 b0
  rw [hshift]
  bv_omega

/-! ### The whole record -/

/-- The state after the payload of an extension record of the two bytes `b1` and `b0`. -/
def afterExtension (s : State) (aaaa : BitVec 16) (tt b1 b0 : Byte) : State :=
  ((afterHeader s 2 aaaa tt).extensionByte b1 1).extensionByte b0 0

/-- The header and the payload of a two-byte extension record. -/
theorem feeds_extension {tt : Byte} (hfault : s.fault = none) (hP : P .continue_) (hp : s.phase = .awaitMark)
    (htype : tt = 0x02 ∨ tt = 0x04) (aaaa : BitVec 16) (b1 b0 : Byte) :
    Feeds P (markChar :: byteText 2 ++ byteText (aaaa.extractLsb' 8 8) ++ byteText (aaaa.extractLsb' 0 8) ++
      byteText tt ++ byteText b1 ++ byteText b0) s (afterExtension s aaaa tt b1 b0) := by
  have hheader := feeds_header hfault hP hp 2 aaaa tt
  have hfirst := hheader.append (feeds_extensionByte (m := 1) (by exact hfault) hP rfl htype rfl b1)
  have hcount : ((afterHeader s 2 aaaa tt).extensionByte b1 1).remainingDigits.toNat = 2 * 0 + 1 + 1 :=
    extensionByte_remainingDigits_toNat (by decide) rfl b1
  exact hfirst.append (feeds_extensionByte (m := 0) (by exact hfault) hP rfl htype hcount b0)

/-- A whole two-byte extension record; its checksum ends it and leaves the base (R172, R193). -/
theorem feeds_extensionRecord {tt : Byte} (hfault : s.fault = none) (hp : s.phase = .awaitMark)
    (htype : tt = 0x02 ∨ tt = 0x04) (aaaa : BitVec 16) (b1 b0 cc : Byte) :
    ∃ t, Feeds (fun _ => True) (recordText aaaa tt [b1, b0] cc) s t ∧ t.phase = .awaitMark ∧ t.fault = none ∧
      t.sinkLog = s.sinkLog ∧ t.extensionBase = (afterExtension s aaaa tt b1 b0).extensionBase := by
  have hpayload := feeds_extension (P := fun _ => True) hfault trivial hp htype aaaa b1 b0
  obtain ⟨u, hhigh, hu, hlow⟩ := takes_checksum (s := afterExtension s aaaa tt b1 b0) hfault rfl rfl cc
  have hchecksum : Feeds (fun _ => True) (byteText cc) (afterExtension s aaaa tt b1 b0) _ :=
    .cons hhigh (congrArg Result.status hu) trivial (.cons hlow rfl trivial .nil)
  exact ⟨_, hpayload.append hchecksum, rfl, hfault, rfl, rfl⟩

end

/-- Settles O54, by the record's characters one after the other: the header clears the base, the two bytes make it,
and the checksum leaves it. -/
theorem extensionRecordSetsBase : Obligations.ExtensionRecordSetsBase := by
  intro s aaaa b1 b0 cc tt hfault hp htype
  obtain ⟨t, hfeeds, hphase, htfault, hlog, hbase⟩ := feeds_extensionRecord hfault hp htype aaaa b1 b0 cc
  have hrun := hfeeds.run_fed [] 0
  rw [List.append_nil] at hrun
  refine ⟨t.fed [], hrun, hphase, htfault, hlog, ?_⟩
  change t.extensionBase.toNat = _
  rw [hbase]
  obtain rfl | rfl := htype
  · rw [afterExtension, extensionBytes_extensionBase (k := 0) rfl rfl (by decide), if_pos ⟨rfl, rfl⟩,
      if_neg (by decide)]
    exact lowerSlots_scaled_toNat b1 b0
  · rw [afterExtension, extensionBytes_extensionBase (k := 2) rfl rfl (by decide), if_neg (by rintro ⟨-, h⟩; cases h),
      if_pos rfl]
    exact upperSlots_toNat b1 b0

end Sys2Proof.Machine
end

section
/-! The second digit of a payload byte (43_payload_extension.md): a byte that is only summed, one that extends the
address, and one that goes to the sink. -/

namespace Sys2Proof.Machine

section
variable {i : Instr} {b : Byte} {n : Nibble} {r : Nat} {s : State}

/-- The state after the second digit of a payload byte `b` that is only summed (R163). -/
def State.discarded (s : State) (b : Byte) (r : Nat) : State := { s with
  pendingByte := b
  runningChecksum := s.runningChecksum + b
  phase := if r = 0 then .awaitChecksum else s.phase
  remainingDigits := if r = 0 then 2 else s.remainingDigits
  result := Result.returns .continue_ }

theorem payloadDigit_discarded (hr : r % 2 = 0) (h0 : s.recType ≠ 0x00) (h2 : s.recType ≠ 0x02)
    (h4 : s.recType ≠ 0x04) (hb : insertDigit s.pendingByte n 0 = b) :
    payloadDigit n r s = .ok (s.discarded b r) := by
  subst hb
  exact payloadDigit_other hr h0 h2 h4

/-- At an odd count a payload digit stands in an even slot, and slot 0 is that of the last one (R129). -/
theorem exists_even_slot {d : BitVec 9} (hodd : d.toNat % 2 = 1) :
    ∃ r, d.toNat = r + 1 ∧ r % 2 = 0 ∧ (d = 1 ↔ r = 0) :=
  ⟨d.toNat - 1, by omega, by omega, by bv_omega⟩

/-- The address of a payload byte, as a sum modulo 2^32 (R61, R165). -/
theorem dataAddress_toNat (s : State) : s.dataAddress.toNat =
    (s.extensionBase.toNat + s.loadOffset.toNat + s.recordByteIndex.toNat) % 2 ^ 32 := by
  simp [State.dataAddress]

end

/-- Settles O28: the digit stands in an even slot, and no branch for the byte but the last applies. -/
theorem payloadByteDiscarded : Obligations.PayloadByteDiscarded := by
  intro i n s hi hfault hp hodd h0 h2 h4
  obtain ⟨r, hr, heven, hlast⟩ := exists_even_slot hodd
  simp only [hlast, ← hp]
  exact exec_digit hi hfault hp rfl hr (payloadDigit_discarded heven h0 h2 h4 rfl)

/-- Settles O29: the digit stands in an even slot, and the byte extends the base. -/
theorem payloadByteExtends : Obligations.PayloadByteExtends := by
  rintro i n s hi hfault hp hodd htype _ rfl
  obtain ⟨r, hr, heven, hlast⟩ := exists_even_slot hodd
  simp only [hlast, ← hp]
  exact exec_digit hi hfault hp rfl hr (payloadDigit_extended heven htype rfl)

/-- Settles O30: the digit stands in an even slot, and the byte of a data record asks a bound sink or faults. -/
theorem payloadByteToSink : Obligations.PayloadByteToSink := by
  intro i n s hi hfault hp hodd htype
  obtain ⟨r, hr, heven, hlast⟩ := exists_even_slot hodd
  refine ⟨fun hbound st rest addr data haddr hdata hanswer => ?bound, fun hunbound => ?unbound⟩
  case bound =>
    obtain rfl : addr = s.dataAddress := BitVec.eq_of_toNat_eq (haddr.trans (dataAddress_toNat s).symm)
    subst hdata
    simp only [hlast, ← hp]
    exact exec_digit hi hfault hp rfl hr (payloadDigit_answered heven htype hbound hanswer)
  case unbound =>
    have hcount : s.remainingDigits ≠ 0 := by rintro h0; simp [h0] at hr
    rw [exec_hexDigit hi (by rw [hp]; rfl) hcount]
    exact runCommand_fault hfault (by rw [hp, hr]; exact payloadDigit_unbound heven htype hunbound)

end Sys2Proof.Machine
end

section
/-! The sink's answers steer nothing (43_payload_extension.md R167): a command takes at most one answer off the script,
and returns it. -/

namespace Sys2Proof.Machine

/-- `s` with a script for the sink. -/
def State.scripted (s : State) (script : List SinkResponse) : State := { s with sinkScript := script }

/-- How a rule run from `s` uses the script of the sink: it ends or stops the same whatever the script is, or it sends
a request, takes the answer off the script and returns it (R166, R167). -/
inductive ScriptUse (rule : State → Except Stop State) (s : State) : Prop
  | ends (t : State) (log : t.sinkLog = s.sinkLog)
      (runs : ∀ script, rule (s.scripted script) = .ok (t.scripted script))
  | stops (e : Stop) (runs : ∀ script, rule (s.scripted script) = .error e)
  | asks (t : State) (log : t.sinkLog ≠ s.sinkLog)
      (runs : ∀ st rest, rule (s.scripted (.answers st :: rest)) =
        .ok ((t.respond (statusOnPort s.params.extCodeW st)).scripted rest))

section
variable {rule : State → Except Stop State} {i : Instr} {n : Nibble} {k : Nat} {p : Phase} {s t : State}

/-- A rule that sends no request and only hands the script on. -/
theorem ScriptUse.of_map (log : ∀ t, rule s = .ok t → t.sinkLog = s.sinkLog)
    (runs : ∀ script, rule (s.scripted script) = (rule s).map (·.scripted script)) : ScriptUse rule s := by
  cases h : rule s with
  | ok t => exact .ends t (log t h) fun script => by rw [runs, h]; rfl
  | error e => exact .stops e fun script => by rw [runs, h]; rfl

/-- A rule that does what another rule does from a state with the same requests and parameters. -/
theorem ScriptUse.of_eq {rule' : State → Except Stop State} {s' : State} (h : ScriptUse rule' s')
    (hlog : s'.sinkLog = s.sinkLog) (hparams : s'.params = s.params)
    (heq : ∀ script, rule (s.scripted script) = rule' (s'.scripted script)) : ScriptUse rule s := by
  cases h with
  | ends t log runs => exact .ends t (log.trans hlog) fun script => (heq script).trans (runs script)
  | stops e runs => exact .stops e fun script => (heq script).trans (runs script)
  | asks t log runs =>
    rw [hparams] at runs
    exact .asks t (hlog ▸ log) fun st rest => (heq _).trans (runs st rest)

/-! ### The digit rules -/

/-- A digit of every field but the payload hands the script on. -/
theorem digitRule_scripted (hp : p ≠ .awaitPayload) (n : Nibble) (k : Nat) (s : State) (script : List SinkResponse) :
    digitRule p n k (s.scripted script) = (digitRule p n k s).map (·.scripted script) := by
  cases p with
  | awaitLength => cases k <;> rfl
  | awaitAddress => cases k <;> rfl
  | awaitType =>
    cases k with
    | zero => rw [digitRule, typeDigit_last, typeDigit_last]; rfl
    | succ k => rfl
  | awaitPayload => exact absurd rfl hp
  | awaitChecksum => cases k <;> rfl
  | awaitMark => rfl
  | reserved6 => rfl
  | reserved7 => rfl

/-- A payload digit asks the sink when it completes a byte of a data record and the sink is bound (R165). -/
theorem payloadDigit_scriptUse (n : Nibble) (k : Nat) (s : State) : ScriptUse (payloadDigit n k) s := by
  obtain hk | hk := Nat.mod_two_eq_zero_or_one k
  case inr =>
    exact .ends ({ s with pendingByte := insertDigit s.pendingByte n 1 }.respond .continue_) rfl
      fun _ => payloadDigit_first hk
  by_cases h0 : s.recType = 0x00
  · cases hb : s.cbBound with
    | false => exact .stops _ fun _ => payloadDigit_unbound hk h0 hb
    | true =>
      exact .asks (s.delivered (insertDigit s.pendingByte n 0) .continue_ [] k) (by simp [State.delivered])
        fun _ _ => payloadDigit_delivered hk h0 hb rfl rfl
  by_cases he : s.recType = 0x02 ∨ s.recType = 0x04
  · exact .ends (s.extended (insertDigit s.pendingByte n 0) k) rfl fun _ => payloadDigit_extended hk he rfl
  · obtain ⟨h2, h4⟩ := not_or.1 he
    exact .ends (s.discarded (insertDigit s.pendingByte n 0) k) rfl
      fun _ => payloadDigit_discarded hk h0 h2 h4 rfl

theorem digitRule_scriptUse (p : Phase) (n : Nibble) (k : Nat) (s : State) : ScriptUse (digitRule p n k) s := by
  by_cases hp : p = .awaitPayload
  · subst hp
    exact payloadDigit_scriptUse n k s
  · exact .of_map (fun _ => digitRule_sinkLog hp) (digitRule_scripted hp n k s)

/-! ### Every command -/

theorem digitStep_scriptUse (p : Phase) (b : Byte) (s : State) : ScriptUse (digitStep (digitRule p) b) s := by
  by_cases hr : s.remainingDigits = 0
  · exact .stops _ fun _ => digitStep_zero hr
  cases hn : nibble b with
  | some n =>
    exact (digitRule_scriptUse p n s.takeDigit.slot s.takeDigit).of_eq rfl rfl fun _ => digitStep_digit hr hn
  | none =>
    cases hpolicy : s.params.slotPolicy with
    | retain => exact .ends (s.respond .invalidInput) rfl fun _ => digitStep_retain hr hn hpolicy
    | consume => exact .ends (s.takeDigit.respond .invalidInput) rfl fun _ => digitStep_consume hr hn hpolicy

theorem feed_scriptUse (b : Byte) (s : State) : ScriptUse (feed b) s := by
  cases hl : isLineEnd b with
  | true => exact .ends (s.respond .continue_) rfl fun _ => feed_lineEnd hl
  | false =>
    obtain hm | hd | hres := s.phase.kinds
    · by_cases hb : b = markChar
      · exact .ends (startRecord s).respondRecordStart rfl fun _ => (feed_mark hl (by exact hm)).trans (if_pos hb)
      · exact .ends (s.respond .continue_) rfl fun _ => (feed_mark hl (by exact hm)).trans (if_neg hb)
    · exact (digitStep_scriptUse s.phase b s).of_eq rfl rfl fun _ => feed_digitPhase hl hd
    · exact .stops _ fun _ => feed_reserved hl hres

theorem exec_rule_scriptUse (i : Instr) (s : State) :
    ∃ rule, ScriptUse rule s ∧ ∀ u, exec i u = runCommand rule u := by
  cases i with
  | nop b => exact ⟨_, .ends s.respondNothing rfl fun _ => rfl, exec_nop b⟩
  | init b => exact ⟨_, .ends (bindSink s).respondNothing rfl fun _ => rfl, exec_init b⟩
  | begin b => exact ⟨_, .ends (beginStream s).respondNothing rfl fun _ => rfl, exec_begin b⟩
  | _ => exact ⟨_, feed_scriptUse _ s, exec_feed rfl⟩

end

/-- Settles O36: a rule that asks returns the answer, and every other rule, a fault too, leaves the script. -/
theorem sinkStatusNeverSteers : Obligations.SinkStatusNeverSteers := by
  intro i s t st st' rest h
  obtain ⟨rule, huse, hexec⟩ := exec_rule_scriptUse i s
  rw [hexec] at h ⊢
  obtain ⟨hfault, hrule⟩ := runCommand_next_cases (s := s.scripted (.answers st :: rest)) h
  cases huse with
  | ends u log runs =>
    obtain rfl : u.scripted (.answers st :: rest) = t := by simpa [runs] using hrule
    exact ⟨u.scripted (.answers st' :: rest), runCommand_ok (by exact hfault) (runs _), rfl,
      fun hne => absurd log hne, fun _ => rfl⟩
  | stops e runs =>
    obtain ⟨q, rfl, rfl⟩ : ∃ q, e = .fault q ∧ t = takeFault q (s.scripted (.answers st :: rest)) := by
      simpa [runs] using hrule
    exact ⟨takeFault q (s.scripted (.answers st' :: rest)), runCommand_fault (by exact hfault) (runs _), rfl,
      fun hne => absurd rfl hne, fun _ => rfl⟩
  | asks u log runs =>
    obtain rfl : (u.respond (statusOnPort s.params.extCodeW st)).scripted rest = t := by simpa [runs] using hrule
    exact ⟨(u.respond (statusOnPort s.params.extCodeW st')).scripted rest,
      runCommand_ok (by exact hfault) (runs _ _), rfl, fun _ => ⟨rfl, rfl⟩, fun heq => absurd heq log⟩

end Sys2Proof.Machine
end

section
/-! The writers of the extension base (43_payload_extension.md R176). -/

namespace Sys2Proof.Machine

section
variable {i : Instr} {n : Nibble} {r : Nat} {p : Phase} {s t : State}

/-- The digits that write the extension base: the last one of an extension type, which clears it (R150), and one that
completes a payload byte of an extension record (R170). -/
theorem digitRule_extensionBase (h : digitRule p n r s = .ok t) :
    t.extensionBase = s.extensionBase ∨
    (p = .awaitType ∧ (t.recType = 0x02 ∨ t.recType = 0x04) ∧ t.extensionBase = 0) ∨
    (p = .awaitPayload ∧ r % 2 = 0 ∧ (s.recType = 0x02 ∨ s.recType = 0x04)) := by
  cases p with
  | awaitLength => obtain ⟨-, rfl⟩ | ⟨-, rfl⟩ := lengthDigit_cases h <;> exact .inl rfl
  | awaitAddress => obtain ⟨-, rfl⟩ | ⟨-, rfl⟩ := addressDigit_cases h <;> exact .inl rfl
  | awaitType =>
    obtain ⟨-, rfl⟩ | ⟨-, tt, -, rfl⟩ := typeDigit_cases h
    · exact .inl rfl
    · by_cases he : isExtensionType tt = true
      · exact .inr (.inl ⟨rfl, (isExtensionType_iff tt).1 he, if_pos he⟩)
      · exact .inl (if_neg he)
  | awaitPayload =>
    obtain ⟨-, rfl⟩ | ⟨heven, _, _, _, _, _, _, rfl, hkind⟩ := payloadDigit_cases h
    · exact .inl rfl
    · obtain ⟨-, -, -, -, -, hbase, -⟩ | ⟨htype, -⟩ | ⟨-, -, -, -, -, -, -, hbase, -⟩ := hkind
      · exact .inl hbase
      · exact .inr (.inr ⟨rfl, heven, htype⟩)
      · exact .inl hbase
  | awaitChecksum => obtain ⟨-, rfl⟩ | ⟨-, rfl⟩ := checksumDigit_cases h <;> exact .inl rfl
  | awaitMark => cases h; exact .inl rfl
  | reserved6 => cases h; exact .inl rfl
  | reserved7 => cases h; exact .inl rfl

end

/-- Settles O43: of the commands without a digit only BEGIN writes the base, and of the digits only the two of an
extension record. -/
theorem extensionBaseWriters : Obligations.ExtensionBaseWriters := by
  intro i s t hw h
  obtain ⟨-, ⟨b, rfl, rfl⟩ | ⟨b, rfl, rfl⟩ | ⟨b, rfl, rfl⟩ | ⟨hf, hok | ⟨q, -, rfl⟩⟩⟩ := exec_next_cases h
  · exact .inl rfl
  · exact .inl rfl
  · exact .inr (.inl ⟨b, rfl, rfl⟩)
  · obtain ⟨-, rfl⟩ | ⟨-, -, -, rfl⟩ | ⟨-, -, -, rfl⟩ | ⟨-, -, -, -, rfl⟩ | ⟨-, -, hr, n, hn, hrule⟩ :=
      feed_ok_cases hok
    · exact .inl rfl
    · exact .inl rfl
    · exact .inl rfl
    · refine .inl ?_
      split <;> rfl
    · have hhex : i.hexDigit.isSome = true := Instr.hexDigit_isSome_of_nibble hw hf hn
      obtain hkept | ⟨hp, htype, hbase⟩ | ⟨hp, heven, htype⟩ := digitRule_extensionBase hrule
      · exact .inl hkept
      · exact .inr (.inr (.inl ⟨hhex, hp, htype, hbase⟩))
      · exact .inr (.inr (.inr ⟨completesByte_iff.2 ⟨hhex, hp, hr, heven⟩, htype⟩))
  · exact .inl rfl

end Sys2Proof.Machine
end

section
/-! The checksum field and what the check means (44_checksum_validator.md): the two's complement of the sum, the digits
of `CC` with the status of a record, and line ends, which reach neither the sum nor anything else (R198). -/

namespace Sys2Proof.Machine

/-! ### The check -/

/-- `finalize` negates the sum (R191). -/
theorem finalize_eq_neg (sum : Byte) : finalize sum = -sum := (BitVec.neg_eq_not_add sum).symm

/-- Settles O9: `finalize` is negation modulo 256, so it meets the target exactly when the two add to 0. -/
theorem finalizeIsTwosComplement : Obligations.FinalizeIsTwosComplement := by
  intro sum target
  constructor
  · rw [finalize_eq_neg]
    exact BitVec.toNat_neg sum
  · rw [finalize_eq_iff, ← BitVec.toNat_inj, BitVec.toNat_add]
    rfl

/-- The status of a record with End first and the comparison as an equation (R193, R194). -/
theorem recordStatus_eq (recType sum target : Byte) : recordStatus recType sum target =
    if recType = 0x01 then .end_ else if ~~~sum + 1 = target then .continue_ else .checksumError := by
  rw [recordStatus, finalize, ite_not]

/-! ### The digits of the field -/

/-- Settles O33: the rule of `CC` in the slot of the digit, or in slot 0, where it also ends the record. -/
theorem checksumDigits : Obligations.ChecksumDigits := by
  intro i n s hi hfault hp
  refine ⟨fun h0 h1 => ?before, fun hlast => ?last⟩
  case before =>
    obtain ⟨r, hr⟩ := exists_toNat_eq_add_two h0 h1
    rw [hr]
    exact exec_digit hi hfault hp rfl hr rfl
  case last =>
    have hzero : (0 : BitVec 9) = s.takeDigit.remainingDigits := by rw [takeDigit_remainingDigits, hlast]; rfl
    rw [← recordStatus_eq, hzero]
    exact exec_digit_last hi hfault hp rfl hlast (checksumDigit_last rfl)

/-! ### Line ends in a stream -/

/-- Streams that run the same from every state still do after the same commands, wherever these stop. -/
theorem runAll_append_congr {after after' : List Instr} (h : ∀ t, runAll after t = runAll after' t)
    (before : List Instr) (s : State) : runAll (before ++ after) s = runAll (before ++ after') s := by
  induction before generalizing s with
  | nil => exact h s
  | cons i before ih =>
    rw [List.cons_append, List.cons_append, runAll, runAll]
    cases exec i s with
    | next t => exact ih t
    | fault f => rfl
    | refused q => rfl

/-- In the fault state a stream that goes on is refused at its first command (R216). -/
theorem runAll_cons_refused {s : State} {q : FaultReason} (h : s.fault = some q) (i : Instr) (after : List Instr) :
    runAll (i :: after) s = .refused (.faultRecorded q) := by
  rw [runAll, exec_refused h]

/-- Settles O52: a line end writes only the result port (R104), which the next command does not read; in the fault
state either of the two is refused. -/
theorem lineEndsDeletable : Obligations.LineEndsDeletable := by
  intro before after i next s hi
  obtain ⟨-, -, hignored⟩ := lineEndsIgnored
  refine runAll_append_congr (fun t => ?_) before s
  cases hfault : t.fault with
  | none =>
    rw [runAll_cons_of_next (hignored i t hi hfault)]
    exact runAll_cons_with_result next after t _
  | some q => rw [runAll_cons_refused hfault, runAll_cons_refused hfault]

end Sys2Proof.Machine
end

section
/-! The fault state (60_exceptions.md R216, R243): when a command takes a fault, what it leaves, and that only the reset
input clears it. -/

namespace Sys2Proof

/-- The line ends among the FEED commands, by their byte (R73, R104). -/
theorem Instr.isLineEnd_byte {i : Instr} (hw : i.wf = true) (hf : i.isFeed = true) :
    Machine.isLineEnd i.byte = i.isLineEnd := by
  by_cases hcr : i = .feedCr
  · subst hcr; rfl
  by_cases hlf : i = .feedLf
  · subst hlf; rfl
  · rw [Instr.isLineEnd_byte_eq_false hw hf hcr hlf]
    simp [Instr.isLineEnd, hcr, hlf]

namespace Machine

/-- The condition under which the command faults for each reason of R216. -/
def FaultCause (i : Instr) (s : State) : FaultReason → Prop
  | .unboundSink => completesByte i s = true ∧ s.recType = 0x00 ∧ s.cbBound = false
  | .counterUnderflow => i.isFeed = true ∧ i.isLineEnd = false ∧ s.phase.isDigit = true ∧ s.remainingDigits = 0
  | .illegalPhase => i.isFeed = true ∧ i.isLineEnd = false ∧ (s.phase = .reserved6 ∨ s.phase = .reserved7)

section
variable {i : Instr} {q : FaultReason} {s t : State}

/-- Only a FEED has a cause to fault. -/
theorem FaultCause.isFeed (h : FaultCause i s q) : i.isFeed = true := by
  cases q with
  | unboundSink =>
    obtain ⟨n, hn⟩ := Option.isSome_iff_exists.1 (completesByte_iff.1 h.1).1
    exact (Instr.hexDigit_byte hn).1
  | counterUnderflow => exact h.1
  | illegalPhase => exact h.1

/-- A FEED faults for a reason exactly on the condition of that reason. -/
theorem feed_fault_iff (hw : i.wf = true) (hf : i.isFeed = true) :
    feed i.byte s = .error (.fault q) ↔ FaultCause i s q := by
  have hline := Instr.isLineEnd_byte hw hf
  constructor
  · intro h
    obtain ⟨hl, ⟨hd, hzero, rfl⟩ | ⟨hres, rfl⟩ | ⟨-, hr, n, hn, hrule⟩⟩ := feed_fault_cases h
    · exact ⟨hf, hline ▸ hl, hd, hzero⟩
    · exact ⟨hf, hline ▸ hl, hres⟩
    · obtain ⟨hp, heven, htype, hunbound, rfl⟩ := digitRule_fault_cases hrule
      exact ⟨completesByte_iff.2 ⟨Instr.hexDigit_isSome_of_nibble hw hf hn, hp, hr, heven⟩, htype, hunbound⟩
  · intro h
    cases q with
    | unboundSink =>
      obtain ⟨hc, htype, hunbound⟩ := h
      obtain ⟨hhex, hp, hr, heven⟩ := completesByte_iff.1 hc
      obtain ⟨n, hn⟩ := Option.isSome_iff_exists.1 hhex
      obtain ⟨-, hb, hl, -⟩ := Instr.hexDigit_byte hn
      rw [feed_digitPhase hl (by rw [hp]; rfl), digitStep_digit hr hb, takeDigit_slot hr, hp]
      exact payloadDigit_unbound heven htype hunbound
    | counterUnderflow =>
      obtain ⟨-, hl, hd, hzero⟩ := h
      rw [feed_digitPhase (hline.trans hl) hd, digitStep_zero hzero]
    | illegalPhase =>
      obtain ⟨-, hl, hres⟩ := h
      exact feed_reserved (hline.trans hl) hres

/-- A command with a next state records no fault and has no cause to, or takes the fault of its cause on the state it
started from (R216). -/
theorem exec_fault_cases (hw : i.wf = true) (h : exec i s = .next t) :
    (t.fault = none ∧ ∀ q, ¬FaultCause i s q) ∨
    (∃ q, t = takeFault q s ∧ ∀ q', FaultCause i s q' ↔ q' = q) := by
  have noCause (hnot : i.isFeed = false) : ∀ q, ¬FaultCause i s q := fun q hq => by simp [hq.isFeed] at hnot
  obtain ⟨hfault, ⟨b, rfl, rfl⟩ | ⟨b, rfl, rfl⟩ | ⟨b, rfl, rfl⟩ | ⟨hf, hok | ⟨q, hfeed, rfl⟩⟩⟩ := exec_next_cases h
  · exact .inl ⟨hfault, noCause rfl⟩
  · exact .inl ⟨hfault, noCause rfl⟩
  · exact .inl ⟨hfault, noCause rfl⟩
  · refine .inl ⟨(feed_ok_frame hok).fault.trans hfault, fun q hq => ?_⟩
    rw [← feed_fault_iff hw hf, hok] at hq
    cases hq
  · refine .inr ⟨q, rfl, fun q' => ?_⟩
    rw [← feed_fault_iff hw hf, hfeed]
    simp [eq_comm]

/-- A command with a next state records a fault exactly on its cause. -/
theorem exec_fault_iff (hw : i.wf = true) (h : exec i s = .next t) (q : FaultReason) :
    t.fault = some q ↔ FaultCause i s q := by
  obtain ⟨hnone, hno⟩ | ⟨q', rfl, hcause⟩ := exec_fault_cases hw h
  · simp [hnone, hno q]
  · simp [hcause q, eq_comm]

end

/-- Settles O40: the cause of each reason, and a fault is taken on the state the command started from. -/
theorem faultsExactly : Obligations.FaultsExactly := by
  intro i s t hw h
  have hiff := exec_fault_iff hw h
  refine ⟨fun r hr => ?frame, hiff .unboundSink, hiff .counterUnderflow, hiff .illegalPhase⟩
  case frame =>
    obtain ⟨hnone, -⟩ | ⟨q, rfl, -⟩ := exec_fault_cases hw h
    · simp [hnone] at hr
    · cases hr; rfl

/-- Settles O13: every word decodes to a command, every command is refused, and the reset input is taken in
every state. -/
theorem recordedFaultClearedOnlyByReset : Obligations.RecordedFaultClearedOnlyByReset := by
  intro s r hr
  refine ⟨exec_refused hr, fun w rest => ?command, fun rest => ?reset⟩
  case command =>
    obtain ⟨i, hdec, -⟩ := everyWordDecodesAndEncodesBack w
    rw [step_of_command_next rfl hdec]
    exact exec_refused (by exact hr) i
  case reset =>
    exact ⟨_, step_of_powerOnReset_next rfl, rfl,
      ⟨rfl, rfl, rfl, rfl, rfl, rfl, rfl, rfl, rfl, rfl, rfl, rfl, rfl⟩, rfl⟩

end Machine

end Sys2Proof
end

section
/-! The statuses of the block's own (60_exceptions.md R211 to R214): which one a command without a request returns. -/

namespace Sys2Proof

/-- A FEED of a character without a nibble that is no line end is FEED.MARK or FEED.OTHER. -/
theorem Instr.eq_invalidDigit_of_byte {i : Instr} (hf : i.isFeed = true) (hl : Machine.isLineEnd i.byte = false)
    (hn : Machine.nibble i.byte = none) : i = .feedMark ∨ ∃ b, i = .feedOther b := by
  obtain rfl | rfl | rfl | ⟨b, rfl⟩ | ⟨n, hd⟩ := Instr.feed_kinds hf
  · cases hl
  · cases hl
  · exact .inl rfl
  · exact .inr ⟨b, rfl⟩
  · simp [(Instr.hexDigit_byte hd).2.1] at hn

/-- FEED.MARK and FEED.OTHER are no hex digits. -/
theorem Instr.hexDigit_eq_none_of_invalidDigit {i : Instr} (h : i = .feedMark ∨ ∃ b, i = .feedOther b) :
    i.hexDigit = none := by
  obtain rfl | ⟨b, rfl⟩ := h <;> rfl

namespace Machine

/-- A character that no digit phase takes, in a digit phase (R211). -/
def FeedsInvalid (i : Instr) (s : State) : Prop := (i = .feedMark ∨ ∃ b, i = .feedOther b) ∧ s.phase.isDigit = true

/-- The last digit of the checksum field, which ends a record (R193). -/
def EndsRecord (i : Instr) (s : State) : Prop :=
  i.hexDigit.isSome = true ∧ s.phase = .awaitChecksum ∧ s.remainingDigits = 1

/-- The status that a command without a fault and without a request returns: none outside FEED, that of an invalid
character, that of a completed record, or Continue (R211 to R214). -/
inductive ReturnsOwn (i : Instr) (s t : State) : Prop
  | nothing (other : i.isFeed = false) (status : t.result.status = none)
  | invalid (cause : FeedsInvalid i s) (status : t.result.status = some .invalidInput)
  | record (cause : EndsRecord i s)
      (status : t.result.status = some (recordStatus s.recType t.runningChecksum t.targetChecksum))
  | goesOn (valid : ¬FeedsInvalid i s) (unfinished : ¬EndsRecord i s) (status : t.result.status = some .continue_)

section
variable {i : Instr} {n : Nibble} {r : Nat} {p : Phase} {s t : State}

theorem EndsRecord.not_feedsInvalid (h : EndsRecord i s) : ¬FeedsInvalid i s := fun ⟨hbad, _⟩ => by
  obtain ⟨hhex, -⟩ := h
  simp [Instr.hexDigit_eq_none_of_invalidDigit hbad] at hhex

/-- Only a FEED is invalid or ends a record. -/
theorem FeedsInvalid.isFeed (h : FeedsInvalid i s) : i.isFeed = true := by
  obtain ⟨rfl | ⟨b, rfl⟩, -⟩ := h <;> rfl

theorem EndsRecord.isFeed (h : EndsRecord i s) : i.isFeed = true := by
  obtain ⟨n, hn⟩ := Option.isSome_iff_exists.1 h.1
  exact (Instr.hexDigit_byte hn).1

/-- A digit that asks nothing of the sink returns Continue, or the record's status as the last one of `CC` (R193). -/
theorem digitRule_status (hd : p.isDigit = true) (h : digitRule p n r s = .ok t) (hlog : t.sinkLog = s.sinkLog) :
    t.result.status = some
      (if p = .awaitChecksum ∧ r = 0 then recordStatus s.recType t.runningChecksum t.targetChecksum
        else .continue_) := by
  cases p with
  | awaitLength => obtain ⟨-, rfl⟩ | ⟨-, rfl⟩ := lengthDigit_cases h <;> rfl
  | awaitAddress => obtain ⟨-, rfl⟩ | ⟨-, rfl⟩ := addressDigit_cases h <;> rfl
  | awaitType => obtain ⟨-, rfl⟩ | ⟨-, _, -, rfl⟩ := typeDigit_cases h <;> rfl
  | awaitPayload =>
    obtain ⟨-, rfl⟩ | ⟨-, _, _, _, _, _, _, rfl, hkind⟩ := payloadDigit_cases h
    · rfl
    · obtain ⟨-, -, -, hsent, -⟩ | ⟨-, rfl, -⟩ | ⟨-, -, -, rfl, -⟩ := hkind
      · simp [hsent] at hlog
      · rfl
      · rfl
  | awaitChecksum =>
    obtain ⟨hr, rfl⟩ | ⟨rfl, rfl⟩ := checksumDigit_cases h
    · rw [if_neg fun hlast => hr hlast.2]; rfl
    · rw [if_pos ⟨rfl, rfl⟩]; rfl
  | awaitMark => cases hd
  | reserved6 => cases hd
  | reserved7 => cases hd

/-- The digit that ends a record is the last one of the checksum field. -/
theorem endsRecord_iff (hhex : i.hexDigit.isSome = true) (hr : s.remainingDigits ≠ 0) :
    EndsRecord i s ↔ s.phase = .awaitChecksum ∧ s.remainingDigits.toNat - 1 = 0 := by
  have hlast : s.remainingDigits = 1 ↔ s.remainingDigits.toNat - 1 = 0 := by bv_omega
  rw [EndsRecord, hlast]
  exact and_iff_right hhex

/-- The branches of a FEED that ends, by the status they return. -/
theorem feed_ok_returnsOwn (hw : i.wf = true) (hf : i.isFeed = true) (h : feed i.byte s = .ok t)
    (hlog : t.sinkLog = s.sinkLog) : ReturnsOwn i s t := by
  obtain ⟨hl, rfl⟩ | ⟨-, hm, -, rfl⟩ | ⟨-, hm, -, rfl⟩ | ⟨hl, hd, -, hn, rfl⟩ | ⟨-, hd, hr, n, hn, hrule⟩ :=
    feed_ok_cases h
  · refine .goesOn (fun ⟨hbad, _⟩ => ?_) (fun ⟨hhex, _⟩ => ?_) rfl
    · simp [(Instr.invalidDigit_byte hw hbad).2.2] at hl
    · obtain ⟨n, hn⟩ := Option.isSome_iff_exists.1 hhex
      simp [(Instr.hexDigit_byte hn).2.2.1] at hl
  · exact .goesOn (by simp [FeedsInvalid, hm, Phase.isDigit]) (by simp [EndsRecord, hm]) rfl
  · exact .goesOn (by simp [FeedsInvalid, hm, Phase.isDigit]) (by simp [EndsRecord, hm]) rfl
  · exact .invalid ⟨Instr.eq_invalidDigit_of_byte hf hl hn, hd⟩ rfl
  · have hhex := Instr.hexDigit_isSome_of_nibble hw hf hn
    have hstatus := digitRule_status hd hrule hlog
    by_cases hend : EndsRecord i s
    · exact .record hend (by rw [hstatus, if_pos ((endsRecord_iff hhex hr).1 hend)]; rfl)
    · refine .goesOn (fun ⟨hbad, _⟩ => ?_) hend (by rw [hstatus, if_neg (mt (endsRecord_iff hhex hr).2 hend)])
      simp [Instr.hexDigit_eq_none_of_invalidDigit hbad] at hhex

theorem exec_returnsOwn (hw : i.wf = true) (h : exec i s = .next t) (hfault : t.fault = none)
    (hlog : t.sinkLog = s.sinkLog) : ReturnsOwn i s t := by
  obtain ⟨-, ⟨b, rfl, rfl⟩ | ⟨b, rfl, rfl⟩ | ⟨b, rfl, rfl⟩ | ⟨hf, hok | ⟨q, -, rfl⟩⟩⟩ := exec_next_cases h
  · exact .nothing rfl rfl
  · exact .nothing rfl rfl
  · exact .nothing rfl rfl
  · exact feed_ok_returnsOwn hw hf hok hlog
  · cases hfault

end

/-- Settles O39, by the status the command returns. -/
theorem statusCauses : Obligations.StatusCauses := by
  intro i s t hw h hfault hlog
  suffices hcauses :
      (t.result.status = some .invalidInput ↔ FeedsInvalid i s) ∧
      (t.result.status = some .end_ ↔ EndsRecord i s ∧ s.recType = 0x01) ∧
      (t.result.status = some .checksumError ↔ EndsRecord i s ∧ s.recType ≠ 0x01 ∧
        finalize t.runningChecksum ≠ t.targetChecksum) ∧
      (i.isFeed = true → t.result.status = some .invalidInput ∨ t.result.status = some .end_ ∨
        t.result.status = some .checksumError ∨ t.result.status = some .continue_) by
    simpa only [FeedsInvalid, EndsRecord, and_assoc] using hcauses
  cases exec_returnsOwn hw h hfault hlog with
  | nothing other status =>
    have hvalid : ¬FeedsInvalid i s := fun hbad => by simp [hbad.isFeed] at other
    have hopen : ¬EndsRecord i s := fun hend => by simp [hend.isFeed] at other
    simp [status, other, hvalid, hopen]
  | invalid cause status =>
    have hopen : ¬EndsRecord i s := fun hend => hend.not_feedsInvalid cause
    simp [status, cause, hopen]
  | record cause status =>
    have hvalid := cause.not_feedsInvalid
    by_cases htype : s.recType = 0x01
    · rw [recordStatus, if_pos htype] at status
      simp [status, cause, hvalid, htype]
    rw [recordStatus, if_neg htype] at status
    by_cases hsum : finalize t.runningChecksum = t.targetChecksum
    · rw [if_neg (not_not.2 hsum)] at status
      simpa [status, cause, hvalid, hsum] using htype
    · rw [if_pos hsum] at status
      simpa [status, cause, hvalid, hsum] using htype
  | goesOn valid unfinished status => simp [status, valid, unfinished]

end Machine

end Sys2Proof
end

section
/-! Commands and the sink that answers them (60_exceptions.md R217, 70_reset_and_hazards.md R244, R246): a sink that
re-enters is refused, and with one that keeps its port's rules every command has a next state; so a booted run never
faults. -/

namespace Sys2Proof.Machine

section
variable {i : Instr} {n : Nibble} {r : Nat} {b : Byte} {p : Phase} {s t : State}

/-! ### What the sink's script does -/

/-- A sink that re-enters gives no answer. -/
theorem sinkAnswer_of_reenters {w : CmdWord} {rest : List SinkResponse} (h : s.sinkScript = .reenters w :: rest)
    (a : Addr) (d : Byte) : sinkAnswer s a d = none := by
  simp [sinkAnswer, h]

/-- A sink that answers takes at most its own answer off the script. -/
theorem sinkAnswer_suffix {a : Addr} {d : Byte} {st : Status} {rest : List SinkResponse}
    (h : sinkAnswer s a d = some (st, rest)) : rest <:+ s.sinkScript := by
  unfold sinkAnswer at h
  split at h
  case h_1 hscript => cases h; simp
  case h_2 hscript => cases h; simp [hscript]
  case h_3 => cases h
  case h_4 => cases h

/-- Only a payload digit takes anything off the script. -/
theorem digitRule_sinkScript (h : digitRule p n r s = .ok t) : t.sinkScript <:+ s.sinkScript := by
  by_cases hp : p = .awaitPayload
  · subst hp
    obtain ⟨-, rfl⟩ | ⟨-, _, _, _, _, script, _, rfl, hkind⟩ := payloadDigit_cases h
    · exact List.suffix_rfl
    · obtain ⟨-, -, hanswer, -⟩ | ⟨-, -, hkept, -⟩ | ⟨-, -, -, -, hkept, -⟩ := hkind
      · exact sinkAnswer_suffix hanswer
      · exact hkept ▸ List.suffix_rfl
      · exact hkept ▸ List.suffix_rfl
  · have hmap : digitRule p n r s = (digitRule p n r s).map (·.scripted s.sinkScript) :=
      digitRule_scripted hp n r s s.sinkScript
    rw [h] at hmap
    have heq : t = t.scripted s.sinkScript := Except.ok.inj hmap
    rw [heq]
    exact List.suffix_rfl

/-- A FEED that ends leaves the end of the sink's script. -/
theorem feed_ok_sinkScript (h : feed b s = .ok t) : t.sinkScript <:+ s.sinkScript := by
  obtain ⟨-, rfl⟩ | ⟨-, -, -, rfl⟩ | ⟨-, -, -, rfl⟩ | ⟨-, -, -, -, rfl⟩ | ⟨-, -, -, n, -, hrule⟩ := feed_ok_cases h
  · exact List.suffix_rfl
  · exact List.suffix_rfl
  · exact List.suffix_rfl
  · split <;> exact List.suffix_rfl
  · exact digitRule_sinkScript (s := s.takeDigit) hrule

/-- What every command with a next state leaves of the things outside the block: the end of the sink's script, and the
inputs. -/
theorem exec_environment (h : exec i s = .next t) : t.sinkScript <:+ s.sinkScript ∧ t.inputs = s.inputs := by
  obtain ⟨-, ⟨_, -, rfl⟩ | ⟨_, -, rfl⟩ | ⟨_, -, rfl⟩ | ⟨-, hok | ⟨_, -, rfl⟩⟩⟩ := exec_next_cases h
  · exact ⟨List.suffix_rfl, rfl⟩
  · exact ⟨List.suffix_rfl, rfl⟩
  · exact ⟨List.suffix_rfl, rfl⟩
  · exact ⟨feed_ok_sinkScript hok, (feed_ok_frame hok).inputs⟩
  · exact ⟨List.suffix_rfl, rfl⟩

/-! ### With a sink that keeps its port's rules every command has a next state -/

/-- The two ways of a rule to a next state: it ends, or it takes a fault of R216. -/
inductive Completes (rule : State → Except Stop State) (s : State) : Prop
  | ends (t : State) (runs : rule s = .ok t)
  | faults (q : FaultReason) (runs : rule s = .error (.fault q))

theorem Completes.runCommand {rule : State → Except Stop State} (h : Completes rule s) (hfault : s.fault = none) :
    ∃ t, runCommand rule s = .next t := by
  cases h with
  | ends t runs => exact ⟨t, runCommand_ok hfault runs⟩
  | faults q runs => exact ⟨_, runCommand_fault hfault runs⟩

section
variable (hsink : ∀ r ∈ s.sinkScript, ∃ st, r = SinkResponse.answers st)
include hsink

theorem payloadDigit_completes (n : Nibble) (r : Nat) : Completes (payloadDigit n r) s := by
  obtain hr | hr := Nat.mod_two_eq_zero_or_one r
  case inr => exact .ends _ (payloadDigit_first hr)
  by_cases h0 : s.recType = 0x00
  · cases hb : s.cbBound with
    | false => exact .faults _ (payloadDigit_unbound hr h0 hb)
    | true =>
      cases ha : sinkAnswer s s.dataAddress (insertDigit s.pendingByte n 0) with
      | some a => exact .ends _ (payloadDigit_answered hr h0 hb ha)
      | none =>
        obtain ⟨w, rest, hscript, -⟩ | ⟨rest, hscript, -⟩ := payloadDigit_unanswered (n := n) hr h0 hb ha
        · obtain ⟨st, hst⟩ := hsink (.reenters w) (by simp [hscript])
          cases hst
        · obtain ⟨st, hst⟩ := hsink .silent (by simp [hscript])
          cases hst
  by_cases he : s.recType = 0x02 ∨ s.recType = 0x04
  · exact .ends _ (payloadDigit_extension hr he)
  · obtain ⟨h2, h4⟩ := not_or.1 he
    exact .ends _ (payloadDigit_other hr h0 h2 h4)

/-- The digits of the fields other than the payload ask nothing of the sink and always end. -/
theorem digitRule_completes (p : Phase) (n : Nibble) (r : Nat) : Completes (digitRule p n r) s := by
  cases p with
  | awaitPayload => exact payloadDigit_completes hsink n r
  | _ => exact .ends _ rfl

theorem feed_completes (b : Byte) : Completes (feed b) s := by
  cases hl : isLineEnd b with
  | true => exact .ends _ (feed_lineEnd hl)
  | false =>
    obtain hm | hd | hres := s.phase.kinds
    · by_cases hb : b = markChar
      · exact .ends _ ((feed_mark hl hm).trans (if_pos hb))
      · exact .ends _ ((feed_mark hl hm).trans (if_neg hb))
    · have hfeed := feed_digitPhase hl hd
      by_cases hr : s.remainingDigits = 0
      · exact .faults _ (hfeed.trans (digitStep_zero hr))
      cases hn : nibble b with
      | some n =>
        have hstep := hfeed.trans (digitStep_digit hr hn)
        cases digitRule_completes (s := s.takeDigit) hsink s.phase n s.takeDigit.slot with
        | ends t runs => exact .ends t (hstep.trans runs)
        | faults q runs => exact .faults q (hstep.trans runs)
      | none =>
        cases hpolicy : s.params.slotPolicy with
        | retain => exact .ends _ (hfeed.trans (digitStep_retain hr hn hpolicy))
        | consume => exact .ends _ (hfeed.trans (digitStep_consume hr hn hpolicy))
    · exact .faults _ (feed_reserved hl hres)

/-- With no fault recorded and a sink that keeps its port's rules every command has a next state. -/
theorem exec_completes (hfault : s.fault = none) (i : Instr) : ∃ t, exec i s = .next t := by
  cases i with
  | nop b => exact ⟨_, (exec_nop b s).trans (runCommand_ok hfault rfl)⟩
  | init b => exact ⟨_, (exec_init b s).trans (runCommand_ok hfault rfl)⟩
  | begin b => exact ⟨_, (exec_begin b s).trans (runCommand_ok hfault rfl)⟩
  | _ => rw [exec_feed rfl]; exact (feed_completes hsink _).runCommand hfault

end

/-! ### Booted runs -/

/-- The invariant of R34 and a bound sink leave no command a cause to fault. -/
theorem RetainInv.not_faultCause (hs : RetainInv s) (hbound : s.cbBound = true) (q : FaultReason) :
    ¬FaultCause i s q := by
  intro h
  cases q with
  | unboundSink =>
    obtain ⟨-, -, hunbound⟩ := h
    simp [hbound] at hunbound
  | counterUnderflow =>
    obtain ⟨-, -, hd, hzero⟩ := h
    exact hs.counting hd hzero
  | illegalPhase =>
    obtain ⟨-, -, hp | hp⟩ := h
    · exact hs.legal.phaseLegal.1 hp
    · exact hs.legal.phaseLegal.2 hp

/-- Under the invariant of R34 every command keeps a booted state. -/
theorem exec_keeps_booted (hw : i.wf = true) (hs : RetainInv s) (hb : Booted s) (h : exec i s = .next t) :
    Booted t := by
  obtain ⟨hscript, hinputs⟩ := exec_environment h
  constructor
  case safe =>
    exact Option.eq_none_iff_forall_ne_some.2 fun q hq =>
      hs.not_faultCause hb.bound q ((exec_fault_iff hw h q).1 hq)
  case bound => exact (sinkBindingWriters i s t h).2 (.inl hb.bound)
  case retain => rw [exec_params h]; exact hb.retain
  case sinkKeepsRules => exact fun r hr => hb.sinkKeepsRules r (hscript.subset hr)
  case noReset => rw [hinputs]; exact hb.noReset

/-- Taking an input keeps a booted state. -/
theorem Booted.takeInput {x : Input} {rest : List Input} (hb : Booted s) (hi : s.inputs = x :: rest) :
    Booted { s with inputs := rest } where
  safe := hb.safe
  bound := hb.bound
  retain := hb.retain
  sinkKeepsRules := hb.sinkKeepsRules
  noReset := fun y hy => hb.noReset y (by rw [hi]; exact List.mem_cons_of_mem x hy)

end

/-- Settles O31: the digit completes a byte of a data record, whose request the sink does not answer. -/
theorem sinkReentryRefused : Obligations.SinkReentryRefused := by
  intro i s w rest hi hfault hp hodd htype hbound hscript
  obtain ⟨n, hn⟩ := Option.isSome_iff_exists.1 hi
  obtain ⟨r, hr, heven, -⟩ := exists_even_slot hodd
  have hcount : s.remainingDigits ≠ 0 := by rintro h0; simp [h0] at hr
  rw [exec_hexDigit hn (by rw [hp]; rfl) hcount]
  refine runCommand_refuse hfault ?_
  rw [hp, hr]
  have hanswer : sinkAnswer s.takeDigit s.dataAddress (insertDigit s.pendingByte n 0) = none :=
    sinkAnswer_of_reenters hscript _ _
  obtain ⟨w', rest', hscript', hstop⟩ | ⟨rest', hsilent, -⟩ :=
    payloadDigit_unanswered (s := s.takeDigit) heven htype hbound hanswer
  · obtain ⟨rfl, -⟩ : w = w' ∧ rest = rest' := by simpa [hscript] using hscript'
    exact hstop
  · simp [hscript] at hsilent

/-- Settles O50: a booted state is idle or takes a command, which has a next state and no cause to fault. -/
theorem bootedRunNeverFaults : Obligations.BootedRunNeverFaults := by
  intro s hs hb
  cases hi : s.inputs with
  | nil => exact ⟨s, step_of_inputs_nil hi, hs, hb⟩
  | cons x rest =>
    cases x with
    | powerOnReset => exact absurd rfl (hb.noReset .powerOnReset (by simp [hi]))
    | command w =>
      obtain ⟨i, hdec, hw, -⟩ := everyWordDecodesAndEncodesBack w
      have hbTaken := hb.takeInput hi
      have hsTaken : RetainInv { s with inputs := rest } :=
        hs.of_keepsRecord ⟨rfl, rfl, rfl, rfl, rfl, rfl, rfl, rfl⟩
      obtain ⟨t, hexec⟩ := exec_completes hbTaken.sinkKeepsRules hbTaken.safe i
      exact ⟨t, (step_of_command_next hi hdec).trans hexec, exec_keeps_retainInv hbTaken.retain hsTaken hexec,
        exec_keeps_booted hw hsTaken hbTaken hexec⟩

end Sys2Proof.Machine
end

section
/-! The reset and the silent sink (70_reset_and_hazards.md R240, R253): the registers after power-on, after the reset
input and after BEGIN, and a request that is never answered. -/

namespace Sys2Proof.Machine

theorem SameRegisters.refl (s : State) : SameRegisters s s :=
  ⟨rfl, rfl, rfl, rfl, rfl, rfl, rfl, rfl, rfl, rfl, rfl, rfl, rfl⟩

/-- The reset input brings the registers and the fault of the power-on state (R240, R243). -/
theorem powerOnReset_registers (s : State) :
    SameRegisters (powerOnReset s) State.reset ∧ (powerOnReset s).fault = none :=
  ⟨⟨rfl, rfl, rfl, rfl, rfl, rfl, rfl, rfl, rfl, rfl, rfl, rfl, rfl⟩, rfl⟩

/-- BEGIN writes two registers, which in AwaitMark with no extension already have their new values (R101). -/
theorem exec_begin_sameRegisters {s : State} (hfault : s.fault = none) (hp : s.phase = .awaitMark)
    (hbase : s.extensionBase = 0) (b : Byte) : ∃ t, exec (.begin b) s = .next t ∧ SameRegisters t s :=
  ⟨_, (beginStartsStream b s).2 hfault, { SameRegisters.refl s with phase := hp.symm, extensionBase := hbase.symm }⟩

/-- Settles O12: the registers that the reset input writes, those of the power-on state, and those BEGIN writes. -/
theorem powerOnValues : Obligations.PowerOnValues := by
  refine ⟨powerOnReset_registers, ?values, exec_begin_sameRegisters rfl rfl rfl⟩
  case values => decide

section
variable {n : Nibble} {r : Nat} {s : State} {rest : List SinkResponse}

/-- A request to a silent sink never ends (R253). -/
theorem sinkWrite_of_silent (h : s.sinkScript = .silent :: rest) (a : Addr) (d : Byte) :
    sinkWrite a d s = .error (.stuck .sinkNeverAnswers) := by
  simp [sinkWrite, h]

/-- The second digit of a data byte waits for a silent sink (R165, R253). -/
theorem payloadDigit_silent (hr : r % 2 = 0) (htype : s.recType = 0x00) (hbound : s.cbBound = true)
    (hscript : s.sinkScript = .silent :: rest) :
    payloadDigit n r s = .error (.stuck .sinkNeverAnswers) := by
  rw [payloadDigit_second hr, byteComplete_data (by exact htype), dataByte_bound (by exact hbound),
    sinkWrite_of_silent (by exact hscript)]
  rfl

end

/-- Settles O32: the digit stands in an even slot, so it completes a byte of a data record, whose request waits. -/
theorem silentSinkSticks : Obligations.SilentSinkSticks := by
  intro i s rest hi hfault hp hodd htype hbound hscript
  obtain ⟨n, hn⟩ := Option.isSome_iff_exists.1 hi
  obtain ⟨r, hr, heven, -⟩ := exists_even_slot hodd
  have hcount : s.remainingDigits ≠ 0 := by rintro h0; simp [h0] at hr
  rw [exec_hexDigit hn (by rw [hp]; rfl) hcount]
  exact runCommand_stuck hfault (by rw [hp, hr]; exact payloadDigit_silent heven htype hbound hscript)

end Sys2Proof.Machine
end
